-- ==== Sys2Proof/Word.lean ====
section
/-!
DEFINITION. The word types of the block (spec/00_scope.md section 6): bytes on the wire, 16-bit
counters, timestamps and compare registers. All arithmetic of the spec is on unsigned numbers.
-/

namespace Sys2Proof

/-- A byte: 8 bits (00_scope.md section 6). -/
abbrev Byte := BitVec 8

/-- The spec's `u16`: counters, timestamps, compare registers, LevelTable entries. -/
abbrev U16 := BitVec 16

end Sys2Proof
end

