-- ==== Sys2Proof/Config.lean ====
section
/-!
DEFINITION. The configuration record `CFG` (spec/00_scope.md section 4, 10_state.md R34), the fixed
numbers of the protocol, and the two free values: the half period and the LevelTable of the reset
configuration, to which the spec gives no value (91_not_in_source.md N4, N5).
-/

namespace Sys2Proof

/-- The two phase timers (00_scope.md section 4: `NT` = 2, fixed). -/
inductive Timer where
  | t0
  | t1
  deriving DecidableEq, Repr

/-- The polarity the tracker expects of the next edge (10_state.md R21). -/
inductive Polarity where
  | falling
  | rising
  deriving DecidableEq, Repr

/-- `CFG`: the implementation parameters, fixed for a run and never written (10_state.md R34). -/
structure Cfg where
  /-- `N`, the number of phase-timer channels. -/
  nChan : Nat
  /-- `M`, the number of outputs; unit ids are 1..M. -/
  nUnit : Nat
  /-- `H`, the nominal half period in ticks. -/
  half : U16
  /-- `LevelTable[0..100]`, fractions of the half period in units of 1/65536. -/
  levelTable : List U16
  /-- `timerOf(c)` for `c` in 0..N-1. -/
  timers : List Timer
  /-- `RXCAP`, the capacity of the receive ring. -/
  rxcap : Nat
  /-- `PHASE_TOP`, the last value of a phase counter before it wraps. -/
  phaseTop : U16
  /-- `P_LATCH_DISABLED`: a match is latched while the channel's interrupt is disabled. -/
  latchDisabled : Bool
  /-- `ZC_POL_RESET`, the tracked polarity after reset. -/
  zcPolReset : Polarity
  /-- `OP_NOTHING` (open, R3). -/
  opNothing : Byte
  /-- `OP_OFF` (open, R3). -/
  opOff : Byte
  deriving DecidableEq, Repr

namespace Config

/-- `ESC`, the escape byte (30_encoding.md R60). -/
def esc : Byte := 0x5C

/-- `OP_INFO` (30_encoding.md R63). -/
def opInfo : Byte := 1

/-- `OP_ON` (30_encoding.md R63). -/
def opOn : Byte := 2

/-- `OP_LEVEL` (30_encoding.md R63). -/
def opLevel : Byte := 4

/-- The half period of the reset configuration before its check: a FREE VALUE (log 6). -/
opaque rawHalf : U16

/-- The LevelTable of the reset configuration before its check: a FREE VALUE (log 6). -/
opaque rawTable : List U16

/-- The table `LevelTable_T` of 95_test_vectors.md part 1, invented there for the vectors. -/
def testTable : List U16 := (List.range 101).map fun i => BitVec.ofNat 16 ((100 - i) * 655)

/-- The default `timerOf` (00_scope.md section 4): timer 0 for `c < ceil(N/2)`, else timer 1. -/
def defaultTimers (n : Nat) : List Timer :=
  (List.range n).map fun c => if c < (n + 1) / 2 then .t0 else .t1

/-- `CFG_T`, the test configuration of 95_test_vectors.md part 1. -/
def test : Cfg where
  nChan := 6
  nUnit := 3
  half := 20000
  levelTable := testTable
  timers := defaultTimers 6
  rxcap := 16
  phaseTop := 0xFFFF
  latchDisabled := false
  zcPolReset := .falling
  opNothing := 0
  opOff := 3

end Config

end Sys2Proof
end

