-- ==== Sys2Proof/Syntax.lean ====
section
/-!
DEFINITION. The instructions: one constructor per row of spec/opcode_table.json, in the table's order
(spec/30_encoding.md R61 to R66, section 6). The commands of the wire protocol are the instruction set
of the block (00_scope.md R7).
-/

namespace Sys2Proof

/-- The seven classes of frame (30_encoding.md R68). -/
inductive Instr where
  /-- `NOTHING`, alias `PING`: format F0. -/
  | nothing
  /-- `INFO`: format F0. -/
  | info
  /-- `ON u`: format F1. -/
  | on (id : Byte)
  /-- `OFF u`: format F1. -/
  | off (id : Byte)
  /-- `LEVEL u, l`: format F2. -/
  | level (id lvl : Byte)
  /-- `BADOP`: ESC and an opcode byte that is none of the five opcodes (R66). -/
  | badop (op : Byte)
  /-- `BADSTART`: a lead byte other than ESC (R65). -/
  | badstart (b : Byte)
  deriving DecidableEq, Repr

/-- The result codes by name (30_encoding.md R73). -/
inductive ResultCode where
  | success
  | invalidStart
  | invalidCommand
  | invalidId
  | noDimmerAvailable
  /-- Reserved, never produced (R67). -/
  | noClockAvailable
  /-- Defined, never produced (R67). -/
  | genericFailure
  deriving DecidableEq, Repr

/-- The state of a unit (10_state.md R11). -/
inductive UState where
  | off
  | on
  | dimming
  deriving DecidableEq, Repr

/-- The states of the foreground sequencer (10_state.md R29). -/
inductive Seq where
  | sBoot
  | sLead
  | sOpc
  | sId
  | sLvl
  | sRun
  deriving DecidableEq, Repr

/-- The micro-steps of command execution (40_commands.md R86). Channel indices and unit ids are
numbers; a level is the byte received. -/
inductive MicroStep where
  /-- Send the bytes, in order, in one step (R96). -/
  | resp (bs : List Byte)
  /-- The header of Info (R89). -/
  | i0
  /-- `lo8(zc_fall)` (R89). -/
  | i1
  /-- `hi8(zc_fall)` (R89). -/
  | i2
  /-- `lo8(zc_rise)` (R89). -/
  | i3
  /-- `hi8(zc_rise)` (R89). -/
  | i4
  /-- The per-channel and per-unit bytes of Info (R89). -/
  | i5
  /-- `TxFlush()` (60_exceptions.md R153). -/
  | flush
  /-- `rd <- 0; wr <- 0` (20_memory.md R44). -/
  | curReset
  /-- Latch the pin high, state On (41_unit_and_pool.md R103). -/
  | pinHi (u : Nat)
  /-- Latch the pin low, state Off (R103). -/
  | pinLo (u : Nat)
  /-- Acquire: link (41_unit_and_pool.md R104). -/
  | a1 (c u : Nat) (lvl : Byte)
  /-- Acquire: compare register (R104). -/
  | a2 (c : Nat) (lvl : Byte)
  /-- Acquire: drop the pin latch (R104). -/
  | a3 (u : Nat)
  /-- Acquire: enable the firing interrupt (R104). -/
  | a4 (c : Nat)
  /-- Acquire: state Dimming (R104). -/
  | a5 (u : Nat)
  /-- Release: disable the firing interrupt (41_unit_and_pool.md R105). -/
  | l1 (c : Nat)
  /-- Release: zero the level (R105). -/
  | l2 (c : Nat)
  /-- Release: unlink (R105). -/
  | l3 (c u : Nat)
  /-- Reprogram (41_unit_and_pool.md R106). -/
  | p (c u : Nat) (lvl : Byte)
  deriving DecidableEq, Repr

/-- One step of one agent (00_scope.md R4): the entries of the schedule. -/
inductive Move where
  /-- The foreground: `Boot`, `Fetch` or `Micro`, whichever its state enables. -/
  | fg
  /-- `IRQ`: the zero-cross handler. -/
  | zcIrq
  /-- `IRQ`: the firing handler of channel `c`. -/
  | fireIrq (c : Nat)
  /-- `CAPCLK`. -/
  | capTick
  /-- `PHCLK(t)`. -/
  | phTick (t : Timer)
  /-- `MAINS`. -/
  | zcEdge
  /-- `RX`: the byte `b` arrives and its handler runs. -/
  | rxByte (b : Byte)
  /-- `RESET`. -/
  | reset
  deriving DecidableEq, Repr

end Sys2Proof
end

