-- ==== Sys2Proof/Machine/Operands.lean ====
section
/-!
DEFINITION. Operand forms and the pure value computations of the block: bytes of a 16-bit value,
status bytes, the level-to-compare mapping, the resynchronisation value, the sizes of the Info
response (spec/30_encoding.md R70 to R74, 41_unit_and_pool.md R100, 42_zero_cross.md R124).
-/

namespace Sys2Proof.Machine

/-- `lo8(v) = v[7:0]` (00_scope.md section 6, 20_memory.md R47). -/
def lo8 (v : U16) : Byte := v.extractLsb' 0 8

/-- `hi8(v) = v[15:8]` (00_scope.md section 6, 20_memory.md R47). -/
def hi8 (v : U16) : Byte := v.extractLsb' 8 8

/-- The byte of each result code (30_encoding.md R73). -/
def resultByte : ResultCode → Byte
  | .success => 0
  | .invalidStart => 1
  | .invalidCommand => 2
  | .invalidId => 3
  | .noDimmerAvailable => 4
  | .noClockAvailable => 5
  | .genericFailure => 126

/-- `code(ustate)`: the state byte of the Info response (30_encoding.md R72, decision D4). -/
def ustateByte : UState → Byte
  | .off => 0
  | .on => 1
  | .dimming => 2

/-- A unit id as the byte that travels on the wire (R1 bounds it by 255). -/
def idByte (u : Nat) : Byte := BitVec.ofNat 8 u

/-- `Status(res, a, b) = [3, res, a, b]` (30_encoding.md R71). -/
def status (res : ResultCode) (a b : Byte) : List Byte := [3, resultByte res, a, b]

/-- The boot handshake (30_encoding.md R74; the three ASCII codes are G1 of 93, log 13). -/
def handshake : List Byte := [6, 0, 0, 0, 0x42, 0x65, 0x6E]

/-- `InfoSize = 4 + 4*N + 3*M` (30_encoding.md R72). -/
def infoSize (c : Cfg) : Nat := 4 + 4 * c.nChan + 3 * c.nUnit

/-- The four header bytes of the Info response (30_encoding.md R72 offsets 0 to 3). -/
def infoHeader (c : Cfg) : List Byte := [BitVec.ofNat 8 (3 + infoSize c), 0, Config.opInfo, 0]

/-- `LevelTable[i]` (20_memory.md R46); `none` outside the table. -/
def levelEntry (c : Cfg) (i : Nat) : Option U16 := c.levelTable[i]?

/-- `compareValue(level)` (41_unit_and_pool.md R100): the exact product, shifted right by 16.
`none` outside 1..99, where the spec never consults it (R101), and outside the table. -/
def compareValue (c : Cfg) (lvl : Nat) : Option U16 :=
  if 1 ≤ lvl ∧ lvl ≤ 99 then
    (levelEntry c lvl).map fun e => BitVec.ofNat 16 ((e.toNat * c.half.toNat) >>> 16)
  else none

/-- `Resync(f, r) = (f + r + 2*H) >> 2`, the sum formed exactly (42_zero_cross.md R124). -/
def resync (h f r : U16) : U16 := BitVec.ofNat 16 ((f.toNat + r.toNat + 2 * h.toNat) >>> 2)

/-- `timerOf(c)`. A well-formed configuration lists a timer for every channel; the default is never
read for one of its channels (log 9). -/
def timerOf (c : Cfg) (ch : Nat) : Timer := c.timers.getD ch .t0

/-- The next value of a phase counter (43_phase_timer.md R130). -/
def phaseNext (c : Cfg) (v : U16) : U16 := if v = c.phaseTop ∨ v = 65535 then 0 else v + 1

/-- The next value of a ring cursor: `(a + 1) mod RXCAP` (20_memory.md R42, R43). -/
def ringNext (c : Cfg) (a : Nat) : Nat := (a + 1) % c.rxcap

end Sys2Proof.Machine
end

