-- ==== Sys2Proof/WellFormed.lean ====
section
/-!
DEFINITION. Well-formed configurations (spec/00_scope.md R1 to R3 and section 4) and well-formed
instructions (30_encoding.md R65, R66). A configuration that is not well formed is not a
configuration of this hardware (93_implementation_defined.md U19).
-/

namespace Sys2Proof

/-- R1: the bounds on `N` and `M`. -/
abbrev Cfg.CountsOk (c : Cfg) : Prop :=
  1 ≤ c.nUnit ∧ c.nUnit ≤ 255 ∧ 3 + 4 + 4 * c.nChan + 3 * c.nUnit ≤ 255

/-- `H` is in 1..65535 and the LevelTable has 101 entries, non-increasing (R2 clause (a)). -/
abbrev Cfg.TableOk (c : Cfg) : Prop :=
  1 ≤ c.half.toNat ∧ c.levelTable.length = 101 ∧
  ∀ i, i < 100 → (c.levelTable.getD (i + 1) 0).toNat ≤ (c.levelTable.getD i 0).toNat

/-- R2 clause (b): the compare values of the levels 1..99 are strictly decreasing. -/
abbrev Cfg.CompareOk (c : Cfg) : Prop :=
  ∀ p2, p2 < 100 → ∀ p1, p1 < p2 → 1 ≤ p1 →
    ((Machine.compareValue c p2).getD 0).toNat < ((Machine.compareValue c p1).getD 0).toNat

/-- R3: the five opcodes are pairwise distinct bytes. -/
abbrev Cfg.OpcodesOk (c : Cfg) : Prop :=
  c.opNothing ≠ c.opOff ∧
  c.opNothing ≠ Config.opInfo ∧ c.opNothing ≠ Config.opOn ∧ c.opNothing ≠ Config.opLevel ∧
  c.opOff ≠ Config.opInfo ∧ c.opOff ≠ Config.opOn ∧ c.opOff ≠ Config.opLevel

/-- Section 4: `RXCAP >= 2`, and `timerOf` is given for each of the `N` channels. -/
abbrev Cfg.SizesOk (c : Cfg) : Prop := 2 ≤ c.rxcap ∧ c.timers.length = c.nChan

/-- A configuration of this hardware. -/
abbrev Cfg.WF (c : Cfg) : Prop :=
  c.CountsOk ∧ c.TableOk ∧ c.CompareOk ∧ c.OpcodesOk ∧ c.SizesOk

/-- The byte is one of the five opcodes (30_encoding.md R63). -/
abbrev Cfg.isOpcode (c : Cfg) (op : Byte) : Prop :=
  op = c.opNothing ∨ op = Config.opInfo ∨ op = Config.opOn ∨ op = c.opOff ∨ op = Config.opLevel

/-- A well-formed instruction: `BADOP` carries no opcode (R66), `BADSTART` not ESC (R65). Every
operand byte of the others is legal (R62, R68). -/
def Instr.WF (c : Cfg) : Instr → Prop
  | .badop op => ¬ c.isOpcode op
  | .badstart b => b ≠ Config.esc
  | .nothing => True
  | .info => True
  | .on _ => True
  | .off _ => True
  | .level _ _ => True

end Sys2Proof
end

