-- ==== Sys2Proof/Machine/Calibration.lean ====
section
/-!
DEFINITION. The configuration of `State.reset`. The spec gives H and LevelTable no value and no default
(spec/91_not_in_source.md N4, N5): they are free values, constrained only to be well formed (log 6).
The other parameters take the spec's scenario values and defaults (00_scope.md section 4, log 5).
-/

namespace Sys2Proof.Machine

/-- The configuration with the free calibration, before its check. -/
def rawCfg : Cfg := { Config.test with half := Config.rawHalf, levelTable := Config.rawTable }

/-- The calibration (H, LevelTable) of the reset configuration: the free pair where it is well formed
by R2. A pair that is not well formed is no calibration of this hardware, and the spec's own test pair
stands in for it, so the value ranges over exactly the well-formed pairs (log 6). -/
def calibration : U16 × List U16 :=
  if rawCfg.TableOk ∧ rawCfg.CompareOk then (Config.rawHalf, Config.rawTable)
  else (Config.test.half, Config.test.levelTable)

/-- The configuration of `State.reset`: N = 6 and M = 3 as in the document's scenarios, RXCAP = 16 as in
the spec's test configuration, every other parameter at the spec's default (log 5), a free calibration. -/
def resetCfg : Cfg := { Config.test with half := calibration.1, levelTable := calibration.2 }

end Sys2Proof.Machine
end

