-- ==== Sys2Proof/Machine/State.lean ====
section
/-!
DEFINITION. The state of the block (spec/10_state.md R10 to R33), the reasons a step can stop, and the
state after reset (70_reset_and_hazards.md R160, 10_state.md section 9).
-/

namespace Sys2Proof.Machine

/-- The receive RAM as (address, byte) pairs, addresses strictly rising. An unlisted address reads as no
value: the spec leaves the reset content unspecified (10_state.md R27, log 8). -/
abbrev Memory := List Host.Cell

/-- The registers of one unit (10_state.md R11 to R13). -/
structure PowerUnit where
  /-- `ustate[u]` (R11). -/
  ustate : UState
  /-- `uch[u]` (R12). -/
  uch : Option Nat
  /-- `pin[u]` (R13). -/
  pin : Bool
  deriving DecidableEq, Repr

/-- The registers of one channel (10_state.md R14 to R18). -/
structure Channel where
  /-- `owner[c]` (R14). -/
  owner : Option Nat
  /-- `lvl[c]` (R15). -/
  lvl : Byte
  /-- `cmp[c]` (R16). -/
  cmp : U16
  /-- `ie[c]` (R17). -/
  ie : Bool
  /-- `mf[c]` (R18). -/
  mf : Bool
  deriving DecidableEq, Repr

/-- The whole machine. -/
structure State where
  /-- `CFG`, never written (R34). -/
  cfg : Cfg
  /-- Unit `u` at index `u - 1` (R10). -/
  units : List PowerUnit
  /-- Channel `c` at index `c`. -/
  chans : List Channel
  /-- `zc_fall` (R20). -/
  zcFall : U16
  /-- `zc_rise` (R20). -/
  zcRise : U16
  /-- `zc_pol` (R21). -/
  zcPol : Polarity
  /-- `capcnt` (R22). -/
  capcnt : U16
  /-- `icr` (R23). -/
  icr : U16
  /-- `zc_pend` (R24). -/
  zcPend : Bool
  /-- `pcnt[0]` (R25). -/
  pcnt0 : U16
  /-- `pcnt[1]` (R25). -/
  pcnt1 : U16
  /-- `gie` (R26). -/
  gie : Bool
  /-- `rxbuf` (R27). -/
  rxbuf : Memory
  /-- `rd` (R28). -/
  rd : Nat
  /-- `wr` (R28). -/
  wr : Nat
  /-- `seq` (R29). -/
  seq : Seq
  /-- `r_op` (R30). -/
  rOp : Byte
  /-- `r_id` (R30). -/
  rId : Byte
  /-- `mq` (R30). -/
  mq : List MicroStep
  /-- `tx`, the bytes sent, oldest first (R31). -/
  tx : List Byte
  /-- `pulses`, the firing pulses, oldest first (R32). -/
  pulses : List Nat
  /-- `flushes` (R32). -/
  flushes : Nat
  /-- `F_RXOVERRUN` (R33). -/
  fRxOverrun : Bool
  /-- `F_TORNLINK` (R33). -/
  fTornLink : Bool
  /-- `F_ZCLOST` (R33). -/
  fZcLost : Bool
  /-- The schedule still to come: which agent moves next (00_scope.md R5, 10_state.md R34). A field of the
  model, not of the spec (log 1). -/
  sched : List Move
  deriving DecidableEq, Repr

/-- The reasons a step stops the model. None is an event of the hardware ("there is no crash/halt path",
10_state.md R33): each marks a state no run from reset reaches, so each is safe (log 8, log 9). -/
inductive Fault where
  /-- Raised by a micro-step that names a channel outside 0..N-1 (10_state.md). Safe: unreachable. -/
  | noSuchChannel
  /-- Raised by a micro-step that names a unit outside 1..M (10_state.md). Safe: unreachable. -/
  | noSuchUnit
  /-- Raised by A2 and P for a level outside 1..99 (41_unit_and_pool.md R100, R101). Safe: unreachable. -/
  | levelOutsideTable
  /-- Raised by Fetch and RxByte for a ring address outside 0..RXCAP-1 (20_memory.md R40). Safe:
  unreachable. -/
  | noSuchRingCell
  /-- Raised by Fetch for a ring cell nothing has written (10_state.md R27). Safe: unreachable. -/
  | unwrittenRingCell
  /-- Raised by Fetch where `seq` and `r_op` disagree (the preconditions of 40_commands.md R84, R85). Safe:
  unreachable. -/
  | latchMismatch
  /-- Raised by Micro in S_RUN with an empty queue (10_state.md R29: in S_RUN it is not empty). Safe:
  unreachable. -/
  | emptyQueue
  deriving DecidableEq, Repr

/-- The reasons the model gives no step. -/
inductive Refusal where
  /-- Raised by `exec` for an instruction without a meaning; no arm does. Safe. -/
  | notModelled (mnemonic : String)
  /-- Raised by a schedule that delivers a byte while `gie = 0`: the spec gives RX no step there
  (70_reset_and_hazards.md R172 (a), 93 U14). Safe as a stop; a claim says nothing of such a run (log 2). -/
  | rxWhileDisabled
  /-- Raised by a schedule that names ZcIrq where it is not enabled (42_zero_cross.md R123). Safe: no such
  step exists (log 2). -/
  | zcIrqNotEnabled
  /-- Raised by a schedule that names FireIrq(c) where it is not enabled (43_phase_timer.md R134). Safe: no
  such step exists (log 2). -/
  | fireIrqNotEnabled
  /-- Raised by `configured` for a configuration that is not well formed (00_scope.md R1 to R3). Safe: not a
  configuration of this hardware (log 4). -/
  | notAConfiguration
  deriving DecidableEq, Repr

/-- The outcome of a step. -/
abbrev Result := Host.Outcome State Fault Refusal

/-- A unit after reset: Off, unbound, pin low (10_state.md R11 to R13). -/
def PowerUnit.reset : PowerUnit where
  ustate := .off
  uch := none
  pin := false

/-- A channel after reset: unbound, everything 0 (10_state.md R14 to R18). -/
def Channel.reset : Channel where
  owner := none
  lvl := 0
  cmp := 0
  ie := false
  mf := false

/-- The state after reset of the block with configuration `c` (70_reset_and_hazards.md R160). -/
def State.resetWith (c : Cfg) : State where
  cfg := c
  units := List.replicate c.nUnit PowerUnit.reset
  chans := List.replicate c.nChan Channel.reset
  zcFall := 0
  zcRise := 0
  zcPol := c.zcPolReset
  capcnt := 0
  icr := 0
  zcPend := false
  pcnt0 := 0
  pcnt1 := 0
  gie := false
  rxbuf := []
  rd := 0
  wr := 0
  seq := .sBoot
  rOp := 0
  rId := 0
  mq := []
  tx := []
  pulses := []
  flushes := 0
  fRxOverrun := false
  fTornLink := false
  fZcLost := false
  sched := []

/-- The machine right after reset, in the reset configuration (log 5, log 6). -/
def State.reset : State := State.resetWith resetCfg

end Sys2Proof.Machine
end

