-- ==== Sys2Proof/Machine/Ops.lean ====
section
/-!
DEFINITION. The named operations over the registers, the ring and the output streams, and the error of
a command as one shared operation (spec/20_memory.md R40 to R44, 40_commands.md R86, R93, R96,
43_phase_timer.md R135, 60_exceptions.md R153).
-/

namespace Sys2Proof.Machine

/-- Sequencing of two partial operations: the first stop wins. -/
def andThen (r : Result) (k : State → Result) : Result :=
  match r with
  | .next s => k s
  | .fault e => .fault e
  | .refused e => .refused e

/-! ### Per-unit and per-channel registers -/

/-- The registers of unit `u`, `none` outside 1..M (10_state.md R10). -/
def State.unit? (s : State) (u : Nat) : Option PowerUnit :=
  if u = 0 then none else s.units[u - 1]?

/-- The registers of channel `c`, `none` outside 0..N-1. -/
def State.chan? (s : State) (c : Nat) : Option Channel := s.chans[c]?

/-- Write the registers of unit `u` (1-based). -/
def State.setUnit (s : State) (u : Nat) (x : PowerUnit) : State :=
  { s with units := s.units.set (u - 1) x }

/-- Write the registers of channel `c`. -/
def State.setChan (s : State) (c : Nat) (x : Channel) : State := { s with chans := s.chans.set c x }

/-- Update unit `u`; a unit that does not exist faults (log 9). -/
def updUnit (u : Nat) (f : PowerUnit → PowerUnit) (s : State) : Result :=
  match s.unit? u with
  | some x => .next (s.setUnit u (f x))
  | none => .fault .noSuchUnit

/-- Update channel `c`; a channel that does not exist faults (log 9). -/
def updChan (c : Nat) (f : Channel → Channel) (s : State) : Result :=
  match s.chan? c with
  | some x => .next (s.setChan c (f x))
  | none => .fault .noSuchChannel

/-- `uch[u]`: the channel unit `u` is bound to (10_state.md R12). -/
def State.uchOf (s : State) (u : Nat) : Option Nat := (s.unit? u).bind (·.uch)

/-- `owner[c]`: the unit channel `c` is bound to (10_state.md R14). -/
def State.ownerOf (s : State) (c : Nat) : Option Nat := (s.chan? c).bind (·.owner)

/-- `pcnt[t]` (10_state.md R25). -/
def State.pcnt (s : State) : Timer → U16
  | .t0 => s.pcnt0
  | .t1 => s.pcnt1

/-- `pcnt[t] <- v`. -/
def State.setPcnt (s : State) (t : Timer) (v : U16) : State :=
  match t with
  | .t0 => { s with pcnt0 := v }
  | .t1 => { s with pcnt1 := v }

/-! ### The receive RAM -/

/-- `MemRead(RXBUF, a, 1)`: the byte at `a`, `none` where nothing has been written (20_memory.md R40). -/
def Memory.read (m : Memory) (a : Nat) : Option Byte :=
  match m with
  | [] => none
  | (k, v) :: rest => if k = a then some v else Memory.read rest a

/-- `MemWrite(RXBUF, a, 1, b)`, keeping the addresses strictly rising (20_memory.md R40). -/
def Memory.write (m : Memory) (a : Nat) (b : Byte) : Memory :=
  match m with
  | [] => [(a, b)]
  | (k, v) :: rest =>
    if a < k then (a, b) :: (k, v) :: rest
    else if a = k then (a, b) :: rest
    else (k, v) :: Memory.write rest a b

/-- The canonical form: addresses strictly rising. An unlisted address reads as no value, so no entry
can equal it. -/
abbrev Memory.wf (m : Memory) : Prop := (m.map (·.1)).Pairwise (· < ·)

/-- The number of unread bytes, `(wr - rd) mod RXCAP` (20_memory.md R41). -/
def State.unread (s : State) : Nat := (s.wr + s.cfg.rxcap - s.rd) % s.cfg.rxcap

/-- `RxPop()`'s advance of `rd` (20_memory.md R43). The cell keeps its content. -/
def State.popByte (s : State) : State := { s with rd := ringNext s.cfg s.rd }

/-- `CurReset`: both cursors to 0 in one step (20_memory.md R44). -/
def State.resetCursors (s : State) : State := { s with rd := 0, wr := 0 }

/-! ### The output streams -/

/-- `Tx(b)` for each byte of the list, in order (40_commands.md R96). -/
def State.send (s : State) (bs : List Byte) : State := { s with tx := s.tx ++ bs }

/-- `TxFlush()`: an event that is counted and changes nothing else (60_exceptions.md R153). -/
def State.txFlush (s : State) : State := { s with flushes := s.flushes + 1 }

/-- `Pulse(u)`: one firing pulse on the pin of unit `u`; no register changes (43_phase_timer.md R135). -/
def State.pulse (s : State) (u : Nat) : State := { s with pulses := s.pulses ++ [u] }

/-! ### The sequencer -/

/-- `seq <- S`. -/
def State.goto (s : State) (q : Seq) : State := { s with seq := q }

/-- `r_op <- op`. -/
def State.latchOp (s : State) (op : Byte) : State := { s with rOp := op }

/-- `r_id <- id`. -/
def State.latchId (s : State) (id : Byte) : State := { s with rId := id }

/-- `mq <- q; seq <- S_RUN`: the queue of the command just completed (40_commands.md R86). -/
def State.startRun (s : State) (q : List MicroStep) : State := { s with mq := q, seq := .sRun }

/-- `raise res(a, b)`, the error of a command: the status, then the recovery of 40_commands.md R93
(flush, then reset of the cursors). It saves nothing and enters no handler, and there is no return
(60_exceptions.md R142, R148). -/
def raiseSteps (res : ResultCode) (a b : Byte) : List MicroStep :=
  [.resp (status res a b), .flush, .curReset]

end Sys2Proof.Machine
end

