-- ==== Sys2Proof/Machine/Illegal.lean ====
section
/-!
DEFINITION. The illegal classes BADOP and BADSTART (spec/40_commands.md R82, R83, R88): the command ends in
its error, which is the queue of `raiseSteps`.
-/

namespace Sys2Proof.Machine

/-- BADOP (R83, R88): `r_op` holds the opcode, the answer is InvalidCommand. -/
def execBadop (op : Byte) (s : State) : Result :=
  .next ((s.popByte.latchOp op).startRun (raiseSteps .invalidCommand op 0))

/-- BADSTART (R82): no latch is written, the answer is InvalidStart. -/
def execBadstart (b : Byte) (s : State) : Result :=
  .next (s.popByte.startRun (raiseSteps .invalidStart b 0))

end Sys2Proof.Machine
end

