-- ==== Sys2Proof/Machine/Pool.lean ====
section
/-!
DEFINITION. From a request to its micro-steps: the first-fit scan, the unit state machine, and the
validation of the unit id (spec/41_unit_and_pool.md R102, 40_commands.md R90).
-/

namespace Sys2Proof.Machine

/-- `FirstFree()`: the least channel without an owner (41_unit_and_pool.md R102). -/
def State.firstFree (s : State) : Option Nat := s.chans.findIdx? (fun ch => ch.owner.isNone)

/-- The steps of `Release` (41_unit_and_pool.md R105). -/
def releaseSteps (c u : Nat) : List MicroStep := [.l1 c, .l2 c, .l3 c u]

/-- The steps of `Acquire` (41_unit_and_pool.md R104). -/
def acquireSteps (c u : Nat) (lvl : Byte) : List MicroStep :=
  [.a1 c u lvl, .a2 c lvl, .a3 u, .a4 c, .a5 u]

/-- `rel` of R102: the unit's channel is released if it has one. -/
def State.releaseIfBound (s : State) (u : Nat) : List MicroStep :=
  match s.uchOf u with
  | some c => releaseSteps c u
  | none => []

/-- `SetLevelSteps(u, L)` (41_unit_and_pool.md R102). -/
def setLevelSteps (s : State) (u : Nat) (lvl : Byte) : List MicroStep × ResultCode :=
  if 100 ≤ lvl.toNat then (s.releaseIfBound u ++ [.pinHi u], .success)
  else if lvl = 0 then (s.releaseIfBound u ++ [.pinLo u], .success)
  else
    match s.uchOf u with
    | some c => ([.p c u lvl], .success)
    | none =>
      match s.firstFree with
      | none => ([], .noDimmerAvailable)
      | some c => (acquireSteps c u lvl, .success)

/-- The queue of a level request whose id is valid: the steps, then the status, then the recovery if the
result is not Success (40_commands.md R90, R93). -/
def respondSteps (r : List MicroStep × ResultCode) (op id : Byte) : List MicroStep :=
  if r.2 = .success then r.1 ++ [.resp (status .success op id)] else r.1 ++ raiseSteps r.2 op id

/-- `Exec(op, id, L)` (40_commands.md R90). -/
def execSteps (s : State) (op id lvl : Byte) : List MicroStep :=
  if id = 0 ∨ s.cfg.nUnit < id.toNat then raiseSteps .invalidId op id
  else respondSteps (setLevelSteps s id.toNat lvl) op id

/-- `InfoSteps()` (40_commands.md R89). -/
def infoSteps : List MicroStep := [.i0, .i1, .i2, .i3, .i4, .i5]

end Sys2Proof.Machine
end

