-- ==== Sys2Proof/Machine/Plain.lean ====
section
/-!
DEFINITION. The commands without operands, NOTHING and INFO (spec/40_commands.md R83, R87, R89). A meaning
is the `Fetch` step that takes the last byte of the frame: it advances `rd`, latches what the rule
latches, and leaves the command's queue to the `Micro` steps (R86, log 10).
-/

namespace Sys2Proof.Machine

/-- NOTHING (R83, R87): `r_op <- OP_NOTHING; seq <- S_LEAD`. Nothing is sent and no queue is made. -/
def execNothing (s : State) : Result := .next ((s.popByte.latchOp s.cfg.opNothing).goto .sLead)

/-- INFO (R83, R89): the telemetry block. -/
def execInfo (s : State) : Result := .next ((s.popByte.latchOp Config.opInfo).startRun infoSteps)

end Sys2Proof.Machine
end

