-- ==== Sys2Proof/Machine/Units.lean ====
section
/-!
DEFINITION. The commands on a unit, ON, OFF and LEVEL (spec/40_commands.md R84, R85, R90 to R94). A
meaning is the `Fetch` step that takes the last byte of the frame and makes the queue (R86, log 10).
-/

namespace Sys2Proof.Machine

/-- ON (R84, R91): `r_id <- id; mq <- Exec(OP_ON, id, 100)`. -/
def execOn (id : Byte) (s : State) : Result :=
  .next ((s.popByte.latchId id).startRun (execSteps s Config.opOn id 100))

/-- OFF (R84, R92): `r_id <- id; mq <- Exec(OP_OFF, id, 0)`. -/
def execOff (id : Byte) (s : State) : Result :=
  .next ((s.popByte.latchId id).startRun (execSteps s s.cfg.opOff id 0))

/-- LEVEL (R85, R94): `mq <- Exec(OP_LEVEL, id, level)`. The id was latched by the fetch before. -/
def execLevel (id lvl : Byte) (s : State) : Result :=
  .next (s.popByte.startRun (execSteps s Config.opLevel id lvl))

end Sys2Proof.Machine
end

