-- ==== Sys2Proof/Machine/Dispatch.lean ====
section
/-! DEFINITION. The dispatch of the seven frame classes to their meanings (spec/opcode_table.json). -/

namespace Sys2Proof.Machine

def exec (i : Instr) (s : State) : Host.Outcome State Fault Refusal :=
  match i with
  | .nothing => Sys2Proof.Machine.execNothing s
  | .info => Sys2Proof.Machine.execInfo s
  | .on id => Sys2Proof.Machine.execOn id s
  | .off id => Sys2Proof.Machine.execOff id s
  | .level id lvl => Sys2Proof.Machine.execLevel id lvl s
  | .badop op => Sys2Proof.Machine.execBadop op s
  | .badstart b => Sys2Proof.Machine.execBadstart b s

end Sys2Proof.Machine
end

