-- ==== Sys2Proof/Decode.lean ====
section
/-!
DEFINITION. The decoder of request frames and the encoder (spec/30_encoding.md R60 to R68), and the
host's reading of one opcode-table word. The decoder is total: the only bytes it rejects, by name, are
those of an incomplete frame (R68).
-/

namespace Sys2Proof

/-- What the decoder reads from bytes in order of arrival. -/
inductive Decoded where
  /-- A complete frame, and the bytes behind it. -/
  | frame (i : Instr) (rest : List Byte)
  /-- The bytes end inside a frame: the sequencer waits for more (R68, 40_commands.md R81). -/
  | incomplete
  deriving DecidableEq, Repr

/-- The operand of format F1 (R61): one unit-id byte, taken unconditionally (R64). -/
def decodeF1 (mk : Byte → Instr) : List Byte → Decoded
  | [] => .incomplete
  | u :: rest => .frame (mk u) rest

/-- The operands of format F2 (R61): the unit-id byte and the level byte (R64). -/
def decodeF2 (mk : Byte → Byte → Instr) : List Byte → Decoded
  | u :: l :: rest => .frame (mk u l) rest
  | _ => .incomplete

/-- What follows ESC: the opcode byte (R63), tried in the table's order (section 6), then its payload. -/
def decodeOpcode (c : Cfg) : List Byte → Decoded
  | [] => .incomplete
  | op :: rest =>
    if op = c.opNothing then .frame .nothing rest
    else if op = Config.opInfo then .frame .info rest
    else if op = Config.opOn then decodeF1 .on rest
    else if op = c.opOff then decodeF1 .off rest
    else if op = Config.opLevel then decodeF2 .level rest
    else .frame (.badop op) rest

/-- The first frame of the bytes: a lead byte other than ESC is a frame of its own (R65). -/
def decode (c : Cfg) : List Byte → Decoded
  | [] => .incomplete
  | b :: rest => if b = Config.esc then decodeOpcode c rest else .frame (.badstart b) rest

/-- The bytes of an instruction, in order of sending (R61, R63, R77). -/
def encode (c : Cfg) : Instr → List Byte
  | .nothing => [Config.esc, c.opNothing]
  | .info => [Config.esc, Config.opInfo]
  | .on u => [Config.esc, Config.opOn, u]
  | .off u => [Config.esc, c.opOff, u]
  | .level u l => [Config.esc, Config.opLevel, u, l]
  | .badop op => [Config.esc, op]
  | .badstart b => [b]

/-- The frames of a byte stream, and the bytes of the incomplete frame at its end (R68). The fuel bounds
the number of frames; a stream of `n` bytes holds at most `n`. -/
def decodeStream (c : Cfg) : Nat → List Byte → List Instr × List Byte
  | 0, bs => ([], bs)
  | fuel + 1, bs =>
    match decode c bs with
    | .incomplete => ([], bs)
    | .frame i rest => (i :: (decodeStream c fuel rest).1, (decodeStream c fuel rest).2)

/-- The length of the frame of each class (R61, R65). -/
def frameLength : Instr → Nat
  | .nothing => 2
  | .info => 2
  | .on _ => 3
  | .off _ => 3
  | .level _ _ => 4
  | .badop _ => 2
  | .badstart _ => 1

/-- The `n` bytes of a frame that spec/opcode_table.json writes as the big-endian number `w` of
`8 * n` bits: byte 0, the first received, is the most significant (30_encoding.md section 6). -/
def tableBytes : Nat → Nat → List Byte
  | 0, _ => []
  | n + 1, w => BitVec.ofNat 8 (w >>> (8 * n)) :: tableBytes n w

/-- The bytes of the longest frame that a table word stands for: the word's own bytes, and zero for
every operand byte the table gives no bits (log 11). -/
def paddedBytes (nbits w : Nat) : List Byte :=
  (tableBytes (nbits / 8) w ++ [0, 0, 0, 0]).take (max 4 (nbits / 8))

/-- The instruction the decoder reads from a table word, in the opcode numbering of the reset
configuration, which is the table's (`OP_NOTHING` = 0, `OP_OFF` = 3). `none` for a width that is no
positive whole number of bytes. -/
def decodeTableWord (nbits w : Nat) : Option Instr :=
  if nbits = 0 ∨ nbits % 8 ≠ 0 then none
  else
    match decode Machine.resetCfg (paddedBytes nbits w) with
    | .frame i _ => some i
    | .incomplete => none

end Sys2Proof
end

