-- ==== Sys2Proof/Machine/Fetch.lean ====
section
/-!
DEFINITION. Fetching command bytes: the frame so far with the next unread byte, the `Fetch` step of a byte
that does not complete a frame, and laying a frame where the next step takes it (spec/20_memory.md R43,
R54, 40_commands.md R80 to R85).
-/

namespace Sys2Proof.Machine

/-- The bytes of the current frame that earlier `Fetch` steps took, in the states that wait for a byte
(40_commands.md R82 to R85). -/
def State.framePrefix (s : State) : List Byte :=
  match s.seq with
  | .sOpc => [Config.esc]
  | .sId => [Config.esc, s.rOp]
  | .sLvl => [Config.esc, s.rOp, s.rId]
  | .sLead => []
  | .sBoot => []
  | .sRun => []

/-- The byte `RxPop()` returns (20_memory.md R43). An address outside the ring, or a cell nothing has
written, faults (log 8, log 9). -/
def peekByte (s : State) : Except Fault Byte :=
  if s.rd < s.cfg.rxcap then
    match s.rxbuf.read s.rd with
    | some b => .ok b
    | none => .error .unwrittenRingCell
  else .error .noSuchRingCell

/-- A `Fetch` step whose byte does not complete the frame: ESC in S_LEAD (R82), an opcode with a payload
in S_OPC (R83), the unit id of LEVEL in S_ID (R84). S_LVL is the last byte of every frame (R85). -/
def latchByte (b : Byte) (s : State) : Result :=
  match s.seq with
  | .sLead => .next (s.popByte.goto .sOpc)
  | .sOpc => .next ((s.popByte.latchOp b).goto .sId)
  | .sId => .next ((s.popByte.latchId b).goto .sLvl)
  | .sLvl => .fault .latchMismatch
  | .sBoot => .fault .latchMismatch
  | .sRun => .fault .latchMismatch

/-- The bytes laid at `a`, `a + 1`, ... modulo RXCAP. -/
def layBytes (c : Cfg) (a : Nat) : List Byte → Memory → Memory
  | [], m => m
  | b :: rest, m => layBytes c (ringNext c a) rest (m.write (a % c.rxcap) b)

/-- The sequencer in the middle of a frame: `seq` and the latches as the `Fetch` steps of all its bytes
but the last leave them. The queue is empty outside S_RUN (10_state.md R30). -/
def State.midFrame (s : State) (bytes : List Byte) : State :=
  match bytes with
  | [_, _] => { s with seq := .sOpc, mq := [] }
  | [_, op, _] => { s with seq := .sId, rOp := op, mq := [] }
  | [_, op, u, _] => { s with seq := .sLvl, rOp := op, rId := u, mq := [] }
  | _ => { s with seq := .sLead, mq := [] }

/-- The frame `bytes` in the ring from `rd` on, all of it but its last byte already fetched, and the
foreground next to move (log 10). -/
def State.layFrame (s : State) (bytes : List Byte) : State :=
  { s.midFrame bytes with
    rxbuf := layBytes s.cfg s.rd bytes s.rxbuf
    rd := (s.rd + bytes.length - 1) % s.cfg.rxcap
    wr := (s.rd + bytes.length) % s.cfg.rxcap
    sched := [] }

/-- The frame of a table word laid where the next step takes it; the word's bytes always hold a whole
frame, so the other case does not occur. -/
def State.layWord (s : State) (nbits w : Nat) : State :=
  match decode s.cfg (paddedBytes nbits w) with
  | .frame i _ => s.layFrame ((paddedBytes nbits w).take (frameLength i))
  | .incomplete => s

end Sys2Proof.Machine
end

