-- ==== Sys2Proof/Machine/Flags.lean ====
section
/-!
DEFINITION. The flags of the block: what raises a match flag, what enables a handler, and the three
marks of the model (spec/43_phase_timer.md R131, 60_exceptions.md R143, R146, 10_state.md R33).
-/

namespace Sys2Proof.Machine

/-- A compare match that is recorded: the counter's new value equals `cmp[c]`, and `ie[c] = 1` or
`P_LATCH_DISABLED` (43_phase_timer.md R130, R131). -/
def matchRecorded (c : Cfg) (count : U16) (ch : Channel) : Bool :=
  decide (count = ch.cmp) && (ch.ie || c.latchDisabled)

/-- The channel after a tick of its timer to `count`: the flag is set by a match and otherwise kept. -/
def withMatch (c : Cfg) (count : U16) (ch : Channel) : Channel :=
  { ch with mf := ch.mf || matchRecorded c count ch }

/-- The match flag that L1 leaves: cleared unless `P_LATCH_DISABLED` (41_unit_and_pool.md R105). -/
def mfAfterRelease (c : Cfg) (mf : Bool) : Bool := mf && c.latchDisabled

/-- ZcIrq is enabled (42_zero_cross.md R123). -/
def zcIrqEnabled (s : State) : Bool := s.gie && s.zcPend

/-- FireIrq is enabled on a channel with these registers (43_phase_timer.md R134). -/
def fireIrqEnabled (s : State) (ch : Channel) : Bool := s.gie && ch.ie && ch.mf

/-- RxByte is enabled (20_memory.md R42). -/
def rxEnabled (s : State) : Bool := s.gie

/-- F_ZCLOST after an edge: set where one is pending and `gie = 1` (42_zero_cross.md R121). -/
def zcLostAfterEdge (s : State) : Bool := s.fZcLost || (s.zcPend && s.gie)

/-- F_RXOVERRUN after the write cursor has become `wr'`: set where it meets `rd` (20_memory.md R45). -/
def overrunAfter (s : State) (wr' : Nat) : Bool := s.fRxOverrun || decide (wr' = s.rd)

end Sys2Proof.Machine
end

