-- ==== Sys2Proof/Machine/Micro.lean ====
section
/-!
DEFINITION. The micro-steps of the foreground, one definition each, and `Micro`, which performs the head
of the queue (spec/40_commands.md R86, R89, R96, 41_unit_and_pool.md R103 to R106).
-/

namespace Sys2Proof.Machine

/-- `Resp(bs)` (40_commands.md R96). -/
def microResp (bs : List Byte) (s : State) : Result := .next (s.send bs)

/-- I0 (R89): the header. -/
def microI0 (s : State) : Result := .next (s.send (infoHeader s.cfg))

/-- I1 (R89): the live low byte of the falling timestamp. -/
def microI1 (s : State) : Result := .next (s.send [lo8 s.zcFall])

/-- I2 (R89): the live high byte of the falling timestamp. -/
def microI2 (s : State) : Result := .next (s.send [hi8 s.zcFall])

/-- I3 (R89): the live low byte of the rising timestamp. -/
def microI3 (s : State) : Result := .next (s.send [lo8 s.zcRise])

/-- I4 (R89): the live high byte of the rising timestamp. -/
def microI4 (s : State) : Result := .next (s.send [hi8 s.zcRise])

/-- The four bytes of a channel in the Info response (30_encoding.md R72). -/
def channelBytes (ch : Channel) : List Byte :=
  match ch.owner with
  | some u => [idByte u, ch.lvl, lo8 ch.cmp, hi8 ch.cmp]
  | none => [0, 0, 0, 0]

/-- The level byte of a unit in the Info response: `lvl[c]` of its channel, else 0 (R72, decision D5). -/
def unitLevelByte (s : State) (x : PowerUnit) : Byte :=
  match x.uch with
  | some c => ((s.chan? c).map (·.lvl)).getD 0
  | none => 0

/-- The three bytes of unit `u` in the Info response (30_encoding.md R72). -/
def unitBytes (s : State) (u : Nat) (x : PowerUnit) : List Byte :=
  [idByte u, ustateByte x.ustate, unitLevelByte s x]

/-- The per-channel and per-unit bytes: channels 0..N-1, then units 1..M (R72). -/
def infoTail (s : State) : List Byte :=
  s.chans.flatMap channelBytes ++ (s.units.zipIdx 1).flatMap fun p => unitBytes s p.2 p.1

/-- I5 (R89). A unit bound to a channel that does not exist faults (log 9). -/
def microI5 (s : State) : Result :=
  if s.units.all fun x => (x.uch.map fun c => decide (c < s.chans.length)).getD true then
    .next (s.send (infoTail s))
  else .fault .noSuchChannel

/-- `Flush` (60_exceptions.md R153). -/
def microFlush (s : State) : Result := .next s.txFlush

/-- `CurReset` (20_memory.md R44). -/
def microCurReset (s : State) : Result := .next s.resetCursors

/-- `PinHi(u)` (41_unit_and_pool.md R103). -/
def microPinHi (u : Nat) (s : State) : Result :=
  updUnit u (fun x => { x with pin := true, ustate := .on }) s

/-- `PinLo(u)` (41_unit_and_pool.md R103). -/
def microPinLo (u : Nat) (s : State) : Result :=
  updUnit u (fun x => { x with pin := false, ustate := .off }) s

/-- A1 (41_unit_and_pool.md R104): both directions of the link, and the level. -/
def microA1 (c u : Nat) (lvl : Byte) (s : State) : Result :=
  andThen (updChan c (fun ch => { ch with owner := some u, lvl := lvl }) s)
    (updUnit u fun x => { x with uch := some c })

/-- A2 (R104): the compare register. A level outside 1..99 faults (log 9). -/
def microA2 (c : Nat) (lvl : Byte) (s : State) : Result :=
  match compareValue s.cfg lvl.toNat with
  | some v => updChan c (fun ch => { ch with cmp := v }) s
  | none => .fault .levelOutsideTable

/-- A3 (R104): drop the pin latch. -/
def microA3 (u : Nat) (s : State) : Result := updUnit u (fun x => { x with pin := false }) s

/-- A4 (R104): enable the firing interrupt; the match flag is not touched. -/
def microA4 (c : Nat) (s : State) : Result := updChan c (fun ch => { ch with ie := true }) s

/-- A5 (R104): state Dimming. -/
def microA5 (u : Nat) (s : State) : Result := updUnit u (fun x => { x with ustate := .dimming }) s

/-- L1 (41_unit_and_pool.md R105): disable the firing interrupt; a pending match is cancelled unless
`P_LATCH_DISABLED`. -/
def microL1 (c : Nat) (s : State) : Result :=
  updChan c (fun ch => { ch with ie := false, mf := mfAfterRelease s.cfg ch.mf }) s

/-- L2 (R105): zero the level. -/
def microL2 (c : Nat) (s : State) : Result := updChan c (fun ch => { ch with lvl := 0 }) s

/-- L3 (R105): clear both directions of the link. -/
def microL3 (c u : Nat) (s : State) : Result :=
  andThen (updChan c (fun ch => { ch with owner := none }) s) (updUnit u fun x => { x with uch := none })

/-- The glitch-avoidance condition of Reprogram (41_unit_and_pool.md R106): the new threshold fires
earlier and the counter has passed the old one, both strictly. -/
def glitchPulse (old new count : U16) : Bool :=
  decide (new.toNat < old.toNat) && decide (old.toNat < count.toNat)

/-- `Reprogram` of channel `ch` at index `c` to the compare value `new`. -/
def reprogram (c u : Nat) (lvl : Byte) (ch : Channel) (new : U16) (s : State) : State :=
  let t := s.setChan c { ch with cmp := new, lvl := lvl }
  if glitchPulse ch.cmp new (s.pcnt (timerOf s.cfg c)) then t.pulse u else t

/-- P (41_unit_and_pool.md R106), one atomic step. -/
def microP (c u : Nat) (lvl : Byte) (s : State) : Result :=
  match compareValue s.cfg lvl.toNat with
  | some v =>
    match s.chan? c with
    | some ch => .next (reprogram c u lvl ch v s)
    | none => .fault .noSuchChannel
  | none => .fault .levelOutsideTable

/-- Perform one micro-step (40_commands.md R86). -/
def perform (m : MicroStep) (s : State) : Result :=
  match m with
  | .resp bs => microResp bs s
  | .i0 => microI0 s
  | .i1 => microI1 s
  | .i2 => microI2 s
  | .i3 => microI3 s
  | .i4 => microI4 s
  | .i5 => microI5 s
  | .flush => microFlush s
  | .curReset => microCurReset s
  | .pinHi u => microPinHi u s
  | .pinLo u => microPinLo u s
  | .a1 c u l => microA1 c u l s
  | .a2 c l => microA2 c l s
  | .a3 u => microA3 u s
  | .a4 c => microA4 c s
  | .a5 u => microA5 u s
  | .l1 c => microL1 c s
  | .l2 c => microL2 c s
  | .l3 c u => microL3 c u s
  | .p c u l => microP c u l s

/-- The state of the sequencer behind the head of the queue: `S_LEAD` where nothing is left (R86). -/
def seqAfter (rest : List MicroStep) : Seq := if rest.isEmpty then .sLead else .sRun

/-- `Micro` (40_commands.md R86): remove the head of `mq` and perform it; the step that empties the queue
sets `seq <- S_LEAD`. -/
def microStep (s : State) : Result :=
  match s.mq with
  | [] => .fault .emptyQueue
  | m :: rest => perform m { s with mq := rest, seq := seqAfter rest }

end Sys2Proof.Machine
end

