-- ==== Sys2Proof/Machine/Foreground.lean ====
section
/-!
DEFINITION. The agent FG: `Boot`, `Fetch` and `Micro`, exactly one of which is enabled in each state, or none
(spec/40_commands.md R80, R81, 70_reset_and_hazards.md R162).
-/

namespace Sys2Proof.Machine

/-- `Boot` (70_reset_and_hazards.md R162): the handshake, then interrupts on, then the lead state. -/
def bootStep (s : State) : Result := .next { s.send handshake with gie := true, seq := .sLead }

/-- A `Fetch` step that takes the byte `b`: the byte completes the frame, and the instruction is run, or it
is latched. A complete frame with bytes left over means that `seq` and `r_op` disagree, which R84 and
R85 exclude (log 9). -/
def fetchByte (b : Byte) (s : State) : Result :=
  match decode s.cfg (s.framePrefix ++ [b]) with
  | .frame i [] => exec i s
  | .frame _ (_ :: _) => .fault .latchMismatch
  | .incomplete => latchByte b s

/-- `Fetch`: with `rd = wr` the foreground holds (R81); the state does not change (log 3). -/
def fetchStep (s : State) : Result :=
  if s.rd = s.wr then .next s
  else
    match peekByte s with
    | .ok b => fetchByte b s
    | .error e => .fault e

/-- The step of FG in each state of the sequencer (10_state.md R29, 40_commands.md R80). -/
def fgStep (s : State) : Result :=
  match s.seq with
  | .sBoot => bootStep s
  | .sLead => fetchStep s
  | .sOpc => fetchStep s
  | .sId => fetchStep s
  | .sLvl => fetchStep s
  | .sRun => microStep s

end Sys2Proof.Machine
end

