-- ==== Sys2Proof/Machine/Agents.lean ====
section
/-!
DEFINITION. The steps of the agents other than the foreground: the capture timer, the edge, the phase
timers, the two kinds of handler, the receive side and reset (spec/42_zero_cross.md,
43_phase_timer.md, 20_memory.md R42, 70_reset_and_hazards.md R160). TAKING AN INTERRUPT is performing
its handler's step: it saves nothing, enters nothing and has no return (60_exceptions.md R147, R148).
-/

namespace Sys2Proof.Machine

/-- `CapTick` (42_zero_cross.md R120): wraps silently from 65535 to 0. -/
def capTick (s : State) : Result := .next { s with capcnt := s.capcnt + 1 }

/-- `ZcEdge` (42_zero_cross.md R121). -/
def zcEdge (s : State) : Result :=
  .next { s with fZcLost := zcLostAfterEdge s, icr := s.capcnt, zcPend := true }

/-- The handler on the falling occurrence (R123). -/
def zcFalling (s : State) : State :=
  { s with zcFall := s.icr, zcPol := .rising, capcnt := 0, zcPend := false }

/-- The handler on the rising occurrence (R123): the timestamp, then the resynchronisation of both phase
counters with the timestamp just written. -/
def zcRising (s : State) : State :=
  let v := resync s.cfg.half s.zcFall s.icr
  { s with zcRise := s.icr, zcPol := .falling, capcnt := 0, pcnt0 := v, pcnt1 := v, zcPend := false }

/-- `ZcIrq` (42_zero_cross.md R123). Where it is not enabled the schedule names no step (log 2). -/
def zcIrq (s : State) : Result :=
  if zcIrqEnabled s then
    match s.zcPol with
    | .falling => .next (zcFalling s)
    | .rising => .next (zcRising s)
  else .refused .zcIrqNotEnabled

/-- The channels after a tick of timer `t` to `count` (43_phase_timer.md R130). -/
def tickChannels (c : Cfg) (t : Timer) (count : U16) (chans : List Channel) : List Channel :=
  chans.mapIdx fun i ch => if timerOf c i = t then withMatch c count ch else ch

/-- `PhTick(t)` (43_phase_timer.md R130): advance the counter, then the compare of its channels on the new
value. -/
def phTick (t : Timer) (s : State) : Result :=
  let count := phaseNext s.cfg (s.pcnt t)
  .next { s.setPcnt t count with chans := tickChannels s.cfg t count s.chans }

/-- The body of `FireIrq(c)` (43_phase_timer.md R134): from the channel to its owner's pin; a channel
without an owner sets F_TORNLINK and pulses nothing. -/
def fireChannel (c : Nat) (ch : Channel) (s : State) : State :=
  let t := s.setChan c { ch with mf := false }
  match ch.owner with
  | some u => t.pulse u
  | none => { t with fTornLink := true }

/-- `FireIrq(c)` (43_phase_timer.md R134). Where it is not enabled, or there is no channel `c`, the
schedule names no step (log 2). -/
def fireIrq (c : Nat) (s : State) : Result :=
  match s.chan? c with
  | some ch => if fireIrqEnabled s ch then .next (fireChannel c ch s) else .refused .fireIrqNotEnabled
  | none => .refused .fireIrqNotEnabled

/-- The body of `RxByte(b)` (20_memory.md R42): the write is unconditional. -/
def storeByte (b : Byte) (s : State) : State :=
  let wr' := ringNext s.cfg s.wr
  { s with rxbuf := s.rxbuf.write s.wr b, wr := wr', fRxOverrun := overrunAfter s wr' }

/-- `RxByte(b)` (20_memory.md R42, R45), arrival and handler in one step. While `gie = 0` the spec gives RX
no step (R172 (a), log 2); an address outside the ring faults (log 9). -/
def rxByte (b : Byte) (s : State) : Result :=
  if rxEnabled s then
    if s.wr < s.cfg.rxcap then .next (storeByte b s) else .fault .noSuchRingCell
  else .refused .rxWhileDisabled

/-- `Reset` (70_reset_and_hazards.md R160): every element at its reset value, the histories empty. The
configuration and the schedule still to come are no state of the block and stay. -/
def resetStep (s : State) : Result := .next { State.resetWith s.cfg with sched := s.sched }

/-- One step of one agent (00_scope.md R4). -/
def move (m : Move) (s : State) : Result :=
  match m with
  | .fg => fgStep s
  | .zcIrq => zcIrq s
  | .fireIrq c => fireIrq c s
  | .capTick => capTick s
  | .phTick t => phTick t s
  | .zcEdge => zcEdge s
  | .rxByte b => rxByte b s
  | .reset => resetStep s

/-- The machine of a configuration: one that is not well formed is refused (00_scope.md R1 to R3, log 4). -/
def configured (c : Cfg) : Result :=
  if c.WF then .next (State.resetWith c) else .refused .notAConfiguration

end Sys2Proof.Machine
end

