-- ==== Sys2Proof/Machine/Step.lean ====
section
/-!
DEFINITION. One step of the block: the next agent of the schedule moves; where the schedule names none, the
foreground does (spec/00_scope.md R4, R5, log 1). And where the host lays an instruction's word.
-/

namespace Sys2Proof.Machine

def step (s : State) : Host.Outcome State Fault Refusal :=
  match s.sched with
  | [] => fgStep s
  | m :: rest => move m { s with sched := rest }

/-- `s` with the frame of a table word laid where the next step fetches it: its bytes in the ring from
`rd`, all but the last already taken, so that the very next step takes the last byte and runs the
instruction (log 10). -/
def State.withFetchWord (s : State) (nbits w : Nat) : State := s.layWord nbits w

end Sys2Proof.Machine
end

