-- ==== Sys2Proof/Safety.lean ====
section
/-!
DEFINITION. The terms claims use: runs of the block with its schedule, the foreground alone, the marks, and
the invariant of the block (spec/10_state.md R19, R28 to R33, 40_commands.md R86, R97,
41_unit_and_pool.md R104, R105). No step reads a definition of this file.
-/

namespace Sys2Proof.Machine

/-- `k` steps from `s` end in `t`: the host's own run of the core. -/
abbrev RunsTo (k : Nat) (s t : State) : Prop := Host.Core.run Sys2Proof.core k s = .next t

/-- The move the next step makes: the head of the schedule, else the foreground (log 1). -/
def State.nextMove (s : State) : Move := s.sched.head?.getD .fg

/-- The sequencer waits for a byte (40_commands.md R81). -/
abbrev State.waits (s : State) : Prop :=
  s.seq = .sLead ∨ s.seq = .sOpc ∨ s.seq = .sId ∨ s.seq = .sLvl

/-- No mark of the model is set (10_state.md R33). -/
abbrev State.unmarked (s : State) : Prop :=
  s.fRxOverrun = false ∧ s.fTornLink = false ∧ s.fZcLost = false

/-- The registers have the shape the configuration gives them: `M` units, `N` channels, and a bound unit
names a channel that exists (10_state.md R10, R12, R14). -/
abbrev State.Shaped (s : State) : Prop :=
  s.units.length = s.cfg.nUnit ∧ s.chans.length = s.cfg.nChan ∧
  ∀ u c, s.uchOf u = some c → c < s.cfg.nChan

/-- The cells of the ring from `rd` on hold `bytes`, all unread (20_memory.md R41). -/
def State.holdsUnread (s : State) (bytes : List Byte) : Prop :=
  s.rd < s.cfg.rxcap ∧ s.wr < s.cfg.rxcap ∧ bytes.length ≤ s.unread ∧
  ∀ k b, bytes[k]? = some b → s.rxbuf.read ((s.rd + k) % s.cfg.rxcap) = some b

/-- What a client may observe of a unit: its state, its latch, and the level of its channel, 0 without one
(41_unit_and_pool.md R107). -/
def State.unitView (s : State) (u : Nat) : Option (UState × Bool × Byte) :=
  (s.unit? u).map fun x => (x.ustate, x.pin, unitLevelByte s x)

/-- The registers after a request that latches the pin of unit `u`: the unit in state `st` with its latch at
`level` and unbound, and the channel it had, if any, released (40_commands.md R91, R92). -/
def State.latched (s : State) (u : Nat) (st : UState) (level : Bool) : State :=
  { s with
    units := s.units.modify (u - 1) fun _ => { ustate := st, uch := none, pin := level }
    chans := match s.uchOf u with
      | none => s.chans
      | some c => s.chans.modify c fun ch =>
          { owner := none, lvl := 0, cmp := ch.cmp, ie := false, mf := ch.mf && s.cfg.latchDisabled } }

/-- The registers after unit `u` has acquired channel `c` at the level `l` with the compare value `v`
(40_commands.md R94, 41_unit_and_pool.md R104). -/
def State.acquired (s : State) (c u : Nat) (l : Byte) (v : U16) : State :=
  { s with
    units := s.units.modify (u - 1) fun _ => { ustate := .dimming, uch := some c, pin := false }
    chans := s.chans.modify c fun ch => { owner := some u, lvl := l, cmp := v, ie := true, mf := ch.mf } }

/-- The unit a micro-step of an operation in progress belongs to; `P` binds nothing and changes no state
of the unit. -/
def busyUnit : MicroStep → Option Nat
  | .a1 _ u _ => some u
  | .a3 u => some u
  | .a5 u => some u
  | .l3 _ u => some u
  | .pinHi u => some u
  | .pinLo u => some u
  | .resp _ => none
  | .i0 => none
  | .i1 => none
  | .i2 => none
  | .i3 => none
  | .i4 => none
  | .i5 => none
  | .flush => none
  | .curReset => none
  | .a2 _ _ => none
  | .a4 _ => none
  | .l1 _ => none
  | .l2 _ => none
  | .p _ _ _ => none

/-- The unit that the operation in the queue binds or unbinds, if there is one (10_state.md R19 (a)). -/
def opUnit (q : List MicroStep) : Option Nat := q.findSome? busyUnit

/-- A code that some rule sends (60_exceptions.md R140: 5 and 126 never). -/
abbrev sentCode (r : ResultCode) : Prop := r ≠ .noClockAvailable ∧ r ≠ .genericFailure

/-- The level is one that is dimmed (41_unit_and_pool.md R102). -/
abbrev dimLevel (l : Byte) : Prop := 1 ≤ l.toNat ∧ l.toNat ≤ 99

/-- The pin step that ends a release: `PinHi(u)` or `PinLo(u)` (41_unit_and_pool.md R102). -/
abbrev latchStep (u : Nat) (m : MicroStep) : Prop := m = .pinHi u ∨ m = .pinLo u

/-- Channel `c` is bound to unit `u` with the registers `ch`. -/
abbrev State.bound (s : State) (c u : Nat) (ch : Channel) : Prop :=
  s.chan? c = some ch ∧ ch.owner = some u

/-- What is left of a command is the rest of one of the spec's lists, and the registers are as the steps
already done left them (40_commands.md R86, R89, R93, 41_unit_and_pool.md R103 to R106). -/
inductive QueueOk (s : State) : List MicroStep → Prop
  /-- Nothing left. -/
  | idle : QueueOk s []
  /-- The status of a command carried out. -/
  | answer (op id : Byte) : QueueOk s [.resp (status .success op id)]
  /-- The rest of an error (R93). -/
  | error (r : ResultCode) (a b : Byte) (q : List MicroStep) :
      sentCode r → q <:+ raiseSteps r a b → QueueOk s q
  /-- The rest of Info (R89). -/
  | info (q : List MicroStep) : q <:+ infoSteps → QueueOk s q
  /-- Acquire before A1: the channel is free, the unit unbound. -/
  | acquireLink (c u : Nat) (l op id : Byte) (ch : Channel) (x : PowerUnit) :
      s.chan? c = some ch → ch.owner = none → s.unit? u = some x → x.uch = none → dimLevel l →
      QueueOk s (acquireSteps c u l ++ [.resp (status .success op id)])
  /-- Acquire before A2: linked, still masked. -/
  | acquireCompare (c u : Nat) (l op id : Byte) (ch : Channel) :
      s.bound c u ch → ch.ie = false → dimLevel l →
      QueueOk s [.a2 c l, .a3 u, .a4 c, .a5 u, .resp (status .success op id)]
  /-- Acquire before A3. -/
  | acquirePin (c u : Nat) (op id : Byte) (ch : Channel) :
      s.bound c u ch → ch.ie = false →
      QueueOk s [.a3 u, .a4 c, .a5 u, .resp (status .success op id)]
  /-- Acquire before A4: the latch is low. -/
  | acquireEnable (c u : Nat) (op id : Byte) (ch : Channel) (x : PowerUnit) :
      s.bound c u ch → ch.ie = false → s.unit? u = some x → x.pin = false →
      QueueOk s [.a4 c, .a5 u, .resp (status .success op id)]
  /-- Acquire before A5. -/
  | acquireState (c u : Nat) (op id : Byte) (ch : Channel) (x : PowerUnit) :
      s.bound c u ch → s.unit? u = some x → x.pin = false →
      QueueOk s [.a5 u, .resp (status .success op id)]
  /-- Release before L1. -/
  | releaseMask (c u : Nat) (m : MicroStep) (op id : Byte) (ch : Channel) :
      s.bound c u ch → latchStep u m →
      QueueOk s (releaseSteps c u ++ [m, .resp (status .success op id)])
  /-- Release before L2: masked. -/
  | releaseLevel (c u : Nat) (m : MicroStep) (op id : Byte) (ch : Channel) :
      s.bound c u ch → ch.ie = false → latchStep u m →
      QueueOk s [.l2 c, .l3 c u, m, .resp (status .success op id)]
  /-- Release before L3: masked, level zeroed. -/
  | releaseLink (c u : Nat) (m : MicroStep) (op id : Byte) (ch : Channel) :
      s.bound c u ch → ch.ie = false → ch.lvl = 0 → latchStep u m →
      QueueOk s [.l3 c u, m, .resp (status .success op id)]
  /-- Before PinHi or PinLo: the unit is unbound. -/
  | latch (u : Nat) (m : MicroStep) (op id : Byte) (x : PowerUnit) :
      s.unit? u = some x → x.uch = none → latchStep u m →
      QueueOk s [m, .resp (status .success op id)]
  /-- Before P: the unit is bound. -/
  | reprogram (c u : Nat) (l op id : Byte) (ch : Channel) :
      s.bound c u ch → dimLevel l → QueueOk s [.p c u l, .resp (status .success op id)]

/-- The invariant of the block, kept by every step of every agent. -/
structure Inv (s : State) : Prop where
  /-- The configuration is one of this hardware (00_scope.md R1 to R3). -/
  cfgWF : s.cfg.WF
  /-- `M` units (10_state.md R10). -/
  unitCount : s.units.length = s.cfg.nUnit
  /-- `N` channels. -/
  chanCount : s.chans.length = s.cfg.nChan
  /-- The link invariant (R19), also between micro-steps. -/
  link : ∀ c u, s.ownerOf c = some u ↔ s.uchOf u = some c
  /-- R19 (b). -/
  enabledOwned : ∀ c ch, s.chan? c = some ch → ch.ie = true → ch.owner ≠ none
  /-- R19 (c). -/
  unownedLevel : ∀ c ch, s.chan? c = some ch → ch.owner = none → ch.lvl = 0
  /-- R15: the level never reaches 100. -/
  levelRange : ∀ c ch, s.chan? c = some ch → ch.lvl.toNat ≤ 99
  /-- 43_phase_timer.md R131: a disabled channel has no pending flag unless `P_LATCH_DISABLED`. -/
  flagEnabled : s.cfg.latchDisabled = false → ∀ c ch, s.chan? c = some ch → ch.mf = true → ch.ie = true
  /-- R19 (a), 41_unit_and_pool.md R102, 43_phase_timer.md R135: outside an operation a unit is Dimming
  exactly where it is bound, and its latch is high exactly where it is On. -/
  unitState : ∀ u x, s.unit? u = some x → opUnit s.mq ≠ some u →
    (x.ustate = .dimming ↔ x.uch ≠ none) ∧ (x.pin = true ↔ x.ustate = .on)
  /-- What is left of the command in progress. -/
  queue : QueueOk s s.mq
  /-- R30: the queue is empty exactly outside S_RUN. -/
  running : s.mq = [] ↔ s.seq ≠ .sRun
  /-- 40_commands.md R84: the precondition of S_ID. -/
  latchId : s.seq = .sId → s.rOp = Config.opOn ∨ s.rOp = s.cfg.opOff ∨ s.rOp = Config.opLevel
  /-- 40_commands.md R85: the precondition of S_LVL. -/
  latchLvl : s.seq = .sLvl → s.rOp = Config.opLevel
  /-- R26, 60_exceptions.md R149: `gie` is 0 exactly until Boot. -/
  booted : s.gie = true ↔ s.seq ≠ .sBoot
  /-- R28: the cursors are in range. -/
  rdRange : s.rd < s.cfg.rxcap
  /-- R28: the cursors are in range. -/
  wrRange : s.wr < s.cfg.rxcap
  /-- The RAM is in its canonical form. -/
  ramWf : s.rxbuf.wf
  /-- Every cell written is a cell of the ring (20_memory.md R40). -/
  ramRange : ∀ a, (s.rxbuf.read a).isSome → a < s.cfg.rxcap
  /-- R27: every unread cell has been written. -/
  unreadWritten : ∀ k, k < s.unread → (s.rxbuf.read ((s.rd + k) % s.cfg.rxcap)).isSome
  /-- 70_reset_and_hazards.md R162: the handshake is the first thing sent. -/
  handshakeFirst : if s.gie then handshake <+: s.tx else s.tx = []
  /-- 43_phase_timer.md R134: a firing handler never finds a channel without an owner. -/
  untorn : s.fTornLink = false

end Sys2Proof.Machine
end

