-- ==== Sys2Proof/Certificates/Slice0/Obligations.lean ====
section
/-!
DEFINITION. The statements for the provers, in the order of OBLIGATIONS.json. Where a statement rests on a
decision the spec marks as its own (92_eei_decisions.md D<n>) or on a log entry of the model, its
docstring names it.
-/

open Sys2Proof Sys2Proof.Machine

/-! ### Encoding -/

/-- A stream of well-formed frames, with an incomplete frame at its end, decodes to exactly those frames and
leaves exactly that end (30_encoding.md section 2, property P7 of 95_test_vectors.md). -/
def Obligations.FrameStreamDecodesToItsInstructions : Prop :=
  ∀ (c : Cfg) (is : List Instr) (tail : List Byte), c.OpcodesOk → (∀ i ∈ is, i.WF c) →
    decode c tail = .incomplete →
    decodeStream c (is.flatMap (encode c) ++ tail).length (is.flatMap (encode c) ++ tail) = (is, tail)

/-- Every byte string is a sequence of well-formed frames and at most three bytes of an incomplete one: the
decoder rejects nothing else, and drops and invents no byte (30_encoding.md section 2). -/
def Obligations.EveryByteStringIsFramesAndAnIncompleteEnd : Prop :=
  ∀ (c : Cfg) (bs : List Byte) (is : List Instr) (left : List Byte),
    decodeStream c bs.length bs = (is, left) →
    is.flatMap (encode c) ++ left = bs ∧ (∀ i ∈ is, i.WF c) ∧ decode c left = .incomplete ∧ left.length ≤ 3

/-- R64: the opcode alone decides how many bytes follow it, and they are taken whatever they are. -/
def Obligations.OpcodeAloneFixesTheFrameLength : Prop :=
  ∀ (c : Cfg) (rest : List Byte) (u l op : Byte), c.OpcodesOk →
    decode c (0x5C :: c.opNothing :: rest) = .frame .nothing rest ∧
    decode c (0x5C :: 1 :: rest) = .frame .info rest ∧
    (¬ c.isOpcode op → decode c (0x5C :: op :: rest) = .frame (.badop op) rest) ∧
    decode c [0x5C, 2] = .incomplete ∧ decode c (0x5C :: 2 :: u :: rest) = .frame (.on u) rest ∧
    decode c [0x5C, c.opOff] = .incomplete ∧ decode c (0x5C :: c.opOff :: u :: rest) = .frame (.off u) rest ∧
    decode c [0x5C, 4] = .incomplete ∧ decode c [0x5C, 4, u] = .incomplete ∧
    decode c (0x5C :: 4 :: u :: l :: rest) = .frame (.level u l) rest

/-- A few words written out from the spec's encodings decode to their instructions (opcode_table.json;
the numbers of NOTHING and OFF are decision D3). -/
def Obligations.WrittenOutWordsDecode : Prop :=
  decodeTableWord 16 0x5C00 = some .nothing ∧ decodeTableWord 16 0x5C01 = some .info ∧
  decodeTableWord 24 0x5C0201 = some (.on 1) ∧ decodeTableWord 24 0x5C0302 = some (.off 2) ∧
  decodeTableWord 32 0x5C040132 = some (.level 1 50) ∧ decodeTableWord 16 0x5C07 = some (.badop 7) ∧
  decodeTableWord 8 0x41 = some (.badstart 0x41)

/-- The word the host lays is the instruction the next step runs (the model's convention, log 10, log 11). -/
def Obligations.LaidWordIsTheNextInstruction : Prop :=
  ∀ (s : State) (nbits w : Nat) (i : Instr), decodeTableWord nbits w = some i →
    s.cfg.opNothing = 0 → s.cfg.opOff = 3 → 2 ≤ s.cfg.rxcap →
    step (s.withFetchWord nbits w) = exec i (s.withFetchWord nbits w)

/-! ### Fetching -/

/-- The step that takes the last byte of a frame is `exec` of the decoded instruction, by default and where
the schedule names the foreground. -/
def Obligations.StepRunsTheDecodedInstruction : Prop :=
  ∀ (s : State) (b : Byte) (i : Instr), s.waits → s.rd ≠ s.wr → s.rd < s.cfg.rxcap →
    s.rxbuf.read s.rd = some b → decode s.cfg (s.framePrefix ++ [b]) = .frame i [] →
    (s.sched = [] → step s = exec i s) ∧
    ∀ rest, step { s with sched := .fg :: rest } = exec i { s with sched := rest }

/-- A whole frame in the ring is fetched byte by byte up to its last byte, changing only the read cursor, the
sequencer state and the latches (`midFrame` says to what, and which stay), and the next step runs the
instruction (40_commands.md section 1; the sequencer's states are decision D26). -/
def Obligations.FrameIsFetchedByteByByte : Prop :=
  ∀ (s : State) (i : Instr), s.cfg.OpcodesOk → i.WF s.cfg → s.sched = [] → s.seq = .sLead →
    s.holdsUnread (encode s.cfg i) →
    ∃ p, RunsTo (frameLength i - 1) s p ∧ step p = exec i p ∧ p.framePrefix = (encode s.cfg i).dropLast ∧
      p = { s with
        rd := (s.rd + (frameLength i - 1)) % s.cfg.rxcap
        seq := (s.midFrame (encode s.cfg i)).seq
        rOp := (s.midFrame (encode s.cfg i)).rOp
        rId := (s.midFrame (encode s.cfg i)).rId }

/-- With no unread byte the foreground holds; only a received byte, or a reset, ends that; the other agents keep
stepping; a byte that does not complete a frame changes no register but the read cursor `rd` and the
sequencer's own `seq`, `r_op` and `r_id` (40_commands.md section 1). That a hold is a step that changes
nothing is the model's choice (log 3). -/
def Obligations.WaitingForegroundHolds : Prop :=
  (∀ s : State, s.waits → s.rd = s.wr → (s.sched = [] → step s = .next s) ∧
    ∀ rest, step { s with sched := .fg :: rest } = .next { s with sched := rest }) ∧
  (∀ s t : State, s.waits → s.rd = s.wr → step s = .next t → s.nextMove ≠ .reset →
    (∀ b, s.nextMove ≠ .rxByte b) → t.seq = s.seq ∧ t.rd = s.rd ∧ t.wr = s.wr) ∧
  (∀ (s : State) (m : Move) (rest : List Move), (m = .capTick ∨ m = .zcEdge ∨ (∃ tm, m = .phTick tm) ∨
      (m = .zcIrq ∧ s.gie = true ∧ s.zcPend = true) ∨
      (∃ c ch, m = .fireIrq c ∧ s.chan? c = some ch ∧ s.gie = true ∧ ch.ie = true ∧ ch.mf = true)) →
    ∃ t, step { s with sched := m :: rest } = .next t) ∧
  (∀ (s t : State) (b : Byte), s.waits → s.rd ≠ s.wr → s.sched = [] → s.rxbuf.read s.rd = some b →
    decode s.cfg (s.framePrefix ++ [b]) = .incomplete → step s = .next t →
    t = { s with rd := (s.rd + 1) % s.cfg.rxcap, seq := t.seq, rOp := t.rOp, rId := t.rId })

/-! ### What each command does -/

/-- R87: NOTHING consumes its bytes, latches its opcode, and changes nothing else. -/
def Obligations.NothingOnlyConsumesItsBytes : Prop :=
  (∀ s : State, exec .nothing s =
    .next { s with rd := (s.rd + 1) % s.cfg.rxcap, rOp := s.cfg.opNothing, seq := .sLead }) ∧
  ∀ s : State, s.cfg.OpcodesOk → s.cfg.opNothing = 0 → s.sched = [] → s.seq = .sLead →
    s.holdsUnread [0x5C, 0x00] →
    RunsTo 2 s { s with rd := (s.rd + 2) % s.cfg.rxcap, rOp := 0, seq := .sLead }

/-- INFO completes in every state, and the foreground alone then sends the telemetry block byte for byte at the
offsets of 30_encoding.md section 3, changing nothing else (the state codes and the per-unit level are
decisions D4 and D5, the six micro-steps D19). -/
def Obligations.InfoSendsTheTelemetryBlock : Prop :=
  (∀ s : State, encode s.cfg .info = [0x5C, 1] ∧ exec .info s = .next { s with rd := (s.rd + 1) % s.cfg.rxcap, rOp := 1, mq := [.i0, .i1, .i2, .i3, .i4, .i5], seq := .sRun }) ∧
  ∀ s : State, s.Shaped → s.sched = [] → s.seq = .sRun → s.mq = [.i0, .i1, .i2, .i3, .i4, .i5] →
    ∃ r : List Byte, RunsTo 6 s { s with mq := [], seq := .sLead, tx := s.tx ++ r } ∧
      r.length = 4 + (4 + 4 * s.cfg.nChan + 3 * s.cfg.nUnit) ∧
      r.take 8 = [BitVec.ofNat 8 (3 + (4 + 4 * s.cfg.nChan + 3 * s.cfg.nUnit)), 0, 1, 0,
        lo8 s.zcFall, hi8 s.zcFall, lo8 s.zcRise, hi8 s.zcRise] ∧
      (∀ c ch, s.chan? c = some ch → (r.drop (8 + 4 * c)).take 4 =
        match ch.owner with
        | some u => [BitVec.ofNat 8 u, ch.lvl, lo8 ch.cmp, hi8 ch.cmp]
        | none => [0, 0, 0, 0]) ∧
      ∀ u x, s.unit? u = some x → (r.drop (8 + 4 * s.cfg.nChan + 3 * (u - 1))).take 3 =
        [BitVec.ofNat 8 u, match x.ustate with | .off => 0 | .on => 1 | .dimming => 2,
          match x.uch.bind s.chan? with | some ch => ch.lvl | none => 0]

/-- R91: ON completes in every state; for a valid id the foreground alone then releases the unit's channel,
latches its pin high, sets the state On and answers Success; for an invalid id it answers InvalidId and
recovers, and touches no unit and no channel. Nothing else changes. -/
def Obligations.OnLatchesTheUnitHigh : Prop :=
  ∀ (s : State) (id : Byte), s.Shaped → s.sched = [] →
    encode s.cfg (.on id) = [0x5C, 2, id] ∧
    ∃ t, exec (.on id) s = .next t ∧
      t = { s with rd := (s.rd + 1) % s.cfg.rxcap, rId := id, mq := execSteps s 2 id 100, seq := .sRun } ∧
      (1 ≤ id.toNat ∧ id.toNat ≤ s.cfg.nUnit → RunsTo t.mq.length t
        { s.latched id.toNat .on true with rd := (s.rd + 1) % s.cfg.rxcap, rId := id, mq := [], seq := .sLead, tx := s.tx ++ [3, 0, 2, id] }) ∧
      (id.toNat = 0 ∨ s.cfg.nUnit < id.toNat → RunsTo t.mq.length t
        { s with rd := 0, wr := 0, rId := id, mq := [], seq := .sLead, tx := s.tx ++ [3, 3, 2, id], flushes := s.flushes + 1 })

/-- R92: OFF, the same with the pin low and the state Off. The opcode echoed is `OP_OFF`, 3 by decision D3. -/
def Obligations.OffLatchesTheUnitLow : Prop :=
  ∀ (s : State) (id : Byte), s.Shaped → s.sched = [] →
    (s.cfg.opOff = 3 → encode s.cfg (.off id) = [0x5C, 3, id]) ∧
    ∃ t, exec (.off id) s = .next t ∧
      t = { s with rd := (s.rd + 1) % s.cfg.rxcap, rId := id, mq := execSteps s s.cfg.opOff id 0, seq := .sRun } ∧
      (1 ≤ id.toNat ∧ id.toNat ≤ s.cfg.nUnit → RunsTo t.mq.length t
        { s.latched id.toNat .off false with rd := (s.rd + 1) % s.cfg.rxcap, rId := id, mq := [], seq := .sLead, tx := s.tx ++ [3, 0, s.cfg.opOff, id] }) ∧
      (id.toNat = 0 ∨ s.cfg.nUnit < id.toNat → RunsTo t.mq.length t
        { s with rd := 0, wr := 0, rId := id, mq := [], seq := .sLead, tx := s.tx ++ [3, 3, s.cfg.opOff, id], flushes := s.flushes + 1 })

/-- LEVEL outside the dimming range completes in every state: 100 and above act as ON and 0 as OFF but for the
echoed opcode, and an invalid id is answered InvalidId whatever the level is (40_commands.md section 3; the
order of the micro-steps is decision D21). -/
def Obligations.LevelOutsideTheDimmingRange : Prop :=
  ∀ (s : State) (id l : Byte), s.Shaped → s.sched = [] →
    encode s.cfg (.level id l) = [0x5C, 4, id, l] ∧
    ∃ t, exec (.level id l) s = .next t ∧
      t = { s with rd := (s.rd + 1) % s.cfg.rxcap, mq := execSteps s 4 id l, seq := .sRun } ∧
      (1 ≤ id.toNat ∧ id.toNat ≤ s.cfg.nUnit → 100 ≤ l.toNat → RunsTo t.mq.length t
        { s.latched id.toNat .on true with rd := (s.rd + 1) % s.cfg.rxcap, mq := [], seq := .sLead, tx := s.tx ++ [3, 0, 4, id] }) ∧
      (1 ≤ id.toNat ∧ id.toNat ≤ s.cfg.nUnit → l.toNat = 0 → RunsTo t.mq.length t
        { s.latched id.toNat .off false with rd := (s.rd + 1) % s.cfg.rxcap, mq := [], seq := .sLead, tx := s.tx ++ [3, 0, 4, id] }) ∧
      (id.toNat = 0 ∨ s.cfg.nUnit < id.toNat → RunsTo t.mq.length t
        { s with rd := 0, wr := 0, mq := [], seq := .sLead, tx := s.tx ++ [3, 3, 4, id], flushes := s.flushes + 1 })

/-- LEVEL 1..99 on a valid unit without a channel: it takes the lowest free channel, which dims at the exact
compare value, or, where every channel has an owner, answers NoDimmerAvailable and touches nothing
(41_unit_and_pool.md sections 2 and 3; the lowest index, the pin drop A3 and the level write in A1 are
decisions D10 and D21, the exact product D6 and D7). -/
def Obligations.LevelAcquiresTheFirstFreeChannel : Prop :=
  ∀ (s : State) (id l : Byte), s.Shaped → s.cfg.TableOk → s.sched = [] → 1 ≤ id.toNat → id.toNat ≤ s.cfg.nUnit →
    1 ≤ l.toNat → l.toNat ≤ 99 → s.uchOf id.toNat = none →
    ∃ t, exec (.level id l) s = .next t ∧
      (∀ c, s.ownerOf c = none → c < s.cfg.nChan → (∀ d, d < c → s.ownerOf d ≠ none) →
        RunsTo t.mq.length t
          { s.acquired c id.toNat l (BitVec.ofNat 16 ((s.cfg.levelTable.getD l.toNat 0).toNat * s.cfg.half.toNat / 65536)) with
            rd := (s.rd + 1) % s.cfg.rxcap, mq := [], seq := .sLead, tx := s.tx ++ [3, 0, 4, id] }) ∧
      ((∀ c, c < s.cfg.nChan → s.ownerOf c ≠ none) →
        RunsTo t.mq.length t
          { s with rd := 0, wr := 0, mq := [], seq := .sLead, tx := s.tx ++ [3, 4, 4, id], flushes := s.flushes + 1 })

/-- LEVEL 1..99 on a valid unit with a channel rewrites the channel's compare value and level in place, with one
extra pulse exactly where the new value is below the old and the channel's counter is beyond the old
(41_unit_and_pool.md section 3; the strict comparisons and the single step are decision D20). -/
def Obligations.LevelReprogramsTheBoundChannel : Prop :=
  ∀ (s : State) (id l : Byte) (c : Nat) (ch : Channel), s.Shaped → s.cfg.TableOk → s.sched = [] → 1 ≤ id.toNat →
    id.toNat ≤ s.cfg.nUnit → 1 ≤ l.toNat → l.toNat ≤ 99 → s.uchOf id.toNat = some c → s.chan? c = some ch →
    ∃ t, exec (.level id l) s = .next t ∧
      RunsTo t.mq.length t
        { s with
          rd := (s.rd + 1) % s.cfg.rxcap, mq := [], seq := .sLead, tx := s.tx ++ [3, 0, 4, id]
          chans := s.chans.set c { ch with
            cmp := BitVec.ofNat 16 ((s.cfg.levelTable.getD l.toNat 0).toNat * s.cfg.half.toNat / 65536), lvl := l }
          pulses := s.pulses ++
            if (s.cfg.levelTable.getD l.toNat 0).toNat * s.cfg.half.toNat / 65536 < ch.cmp.toNat ∧
                ch.cmp.toNat < (s.pcnt (timerOf s.cfg c)).toNat then [id.toNat] else [] }

/-- R88: an unrecognized opcode is answered InvalidCommand and recovered; only `r_op` and what the recovery
writes change. -/
def Obligations.UnknownOpcodeIsAnsweredAndRecovered : Prop :=
  (∀ (s : State) (op : Byte), encode s.cfg (.badop op) = [0x5C, op] ∧ exec (.badop op) s = .next { s with rd := (s.rd + 1) % s.cfg.rxcap, rOp := op, mq := [.resp [3, 2, op, 0], .flush, .curReset], seq := .sRun }) ∧
  ∀ (s : State) (op : Byte), ¬ s.cfg.isOpcode op → s.sched = [] → s.seq = .sOpc → s.rd ≠ s.wr →
    s.rd < s.cfg.rxcap → s.rxbuf.read s.rd = some op →
    step s = exec (.badop op) s ∧
    RunsTo 4 s { s with rd := 0, wr := 0, rOp := op, mq := [], seq := .sLead, tx := s.tx ++ [3, 2, op, 0], flushes := s.flushes + 1 }

/-- R65, R82: in S_LEAD the byte ESC starts a frame, and every other byte is a frame of its own, answered
InvalidStart and recovered; no latch is written. -/
def Obligations.BadLeadByteIsAnsweredAndRecovered : Prop :=
  (∀ (s : State) (b : Byte), encode s.cfg (.badstart b) = [b] ∧ exec (.badstart b) s = .next { s with rd := (s.rd + 1) % s.cfg.rxcap, mq := [.resp [3, 1, b, 0], .flush, .curReset], seq := .sRun }) ∧
  ∀ (s : State) (b : Byte), s.sched = [] → s.seq = .sLead → s.rd ≠ s.wr →
    s.rd < s.cfg.rxcap → s.rxbuf.read s.rd = some b →
    (b = 0x5C → step s = .next { s with rd := (s.rd + 1) % s.cfg.rxcap, seq := .sOpc }) ∧
    (b ≠ 0x5C → (∀ rest, decode s.cfg (b :: rest) = .frame (.badstart b) rest) ∧ step s = exec (.badstart b) s ∧
      RunsTo 4 s { s with rd := 0, wr := 0, mq := [], seq := .sLead, tx := s.tx ++ [3, 1, b, 0], flushes := s.flushes + 1 })

/-- R73, R71: the result codes and the four bytes of a status. -/
def Obligations.StatusCarriesTheResultCode : Prop :=
  ∀ a b : Byte, status .success a b = [3, 0, a, b] ∧ status .invalidStart a b = [3, 1, a, b] ∧
    status .invalidCommand a b = [3, 2, a, b] ∧ status .invalidId a b = [3, 3, a, b] ∧
    status .noDimmerAvailable a b = [3, 4, a, b] ∧ status .noClockAvailable a b = [3, 5, a, b] ∧
    status .genericFailure a b = [3, 126, a, b]

/-- Every command but NOTHING and INFO queues exactly one response, a status with one of the codes 0 to 4
(40_commands.md section 4, 30_encoding.md section 2; that 126 is never sent is decision D29). -/
def Obligations.EveryUnitOrIllegalCommandAnswersOnce : Prop :=
  ∀ (i : Instr) (s t : State), i ≠ .nothing → i ≠ .info → exec i s = .next t →
    ∃ res a b, t.mq.filterMap (fun m => match m with | .resp bs => some bs | _ => none) = [status res a b] ∧
      res ≠ .noClockAvailable ∧ res ≠ .genericFailure

/-- Errors are precise: the step that completes a command writes only the read cursor and the sequencer's
registers, and where the command ends in an error, the steps left write only the output history, the flush
count and the cursors (60_exceptions.md section 1; the order of the recovery is decision D21). -/
def Obligations.CommandErrorsTouchNoHardware : Prop :=
  ∀ (i : Instr) (s t : State), exec i s = .next t →
    t = { s with rd := (s.rd + 1) % s.cfg.rxcap, rOp := t.rOp, rId := t.rId, mq := t.mq, seq := t.seq } ∧
    ∀ res a b, t.sched = [] → t.seq = .sRun → t.mq = [.resp (status res a b), .flush, .curReset] →
      RunsTo 3 t { t with mq := [], seq := .sLead, tx := t.tx ++ [3, resultByte res, a, b], flushes := t.flushes + 1, rd := 0, wr := 0 }

/-- The state of a unit after a request that succeeds depends on that request alone: from any two states the
same request leaves the same state, latch and level (41_unit_and_pool.md section 4, property P5; the latch
of a dimming unit is low by decision D10). -/
def Obligations.LastSuccessfulRequestDecidesTheUnit : Prop :=
  ∀ (s₁ s₂ t₁ t₂ v₁ v₂ : State) (i : Instr) (id : Byte), Inv s₁ → Inv s₂ → s₁.waits → s₂.waits →
    s₁.cfg = s₂.cfg → s₁.sched = [] → s₂.sched = [] →
    (i = .on id ∨ i = .off id ∨ ∃ l, i = .level id l) →
    exec i s₁ = .next t₁ → exec i s₂ = .next t₂ →
    MicroStep.flush ∉ t₁.mq → MicroStep.flush ∉ t₂.mq →
    RunsTo t₁.mq.length t₁ v₁ → RunsTo t₂.mq.length t₂ v₂ →
    v₁.unitView id.toNat = v₂.unitView id.toNat ∧ (v₁.unitView id.toNat).isSome

/-! ### The mapping and the pool -/

/-- R110: in a well-formed configuration the compare values of 1..99 exist, strictly decrease with the level, and
are below the half period. -/
def Obligations.CompareValuesDecreaseBelowTheHalfPeriod : Prop :=
  ∀ c : Cfg, c.WF → (∀ p, 1 ≤ p → p ≤ 99 → ∃ v, compareValue c p = some v ∧ v.toNat ≤ c.half.toNat - 1) ∧
    ∀ p₁ p₂ v₁ v₂, 1 ≤ p₁ → p₁ < p₂ → p₂ ≤ 99 → compareValue c p₁ = some v₁ → compareValue c p₂ = some v₂ →
      v₂.toNat < v₁.toNat

/-- `compareValue` is the exact product shifted right by 16, and has no value outside 1..99 (41_unit_and_pool.md
section 1; the exact product is decision D6, the constant `H` decision D7). -/
def Obligations.CompareValueIsTheExactShiftedProduct : Prop :=
  ∀ (c : Cfg) (l : Nat), (1 ≤ l → l ≤ 99 → ∀ e, c.levelTable[l]? = some e →
      ∃ v, compareValue c l = some v ∧ v.toNat = e.toNat * c.half.toNat / 65536) ∧
    (l = 0 ∨ 100 ≤ l → compareValue c l = none)

/-- R101: a request for 0 or for 100 and above consults no compare value and binds no channel: its steps are at
most a release, then the latch. -/
def Obligations.BoundaryLevelsBypassPhaseTiming : Prop :=
  ∀ (s : State) (u : Nat) (l : Byte), l.toNat = 0 ∨ 100 ≤ l.toNat →
    compareValue s.cfg l.toNat = none ∧
    ∃ pre, setLevelSteps s u l = (pre ++ [if l.toNat = 0 then .pinLo u else .pinHi u], .success) ∧
      ∀ m ∈ pre, (∃ c, m = .l1 c) ∨ (∃ c, m = .l2 c) ∨ ∃ c, m = .l3 c u

/-- The scan gives the lowest channel without an owner, and none exactly where every channel has one
(41_unit_and_pool.md section 2; the lowest index first is decision D21). -/
def Obligations.FirstFitIsTheLowestFreeChannel : Prop :=
  ∀ s : State, (∀ c, s.firstFree = some c ↔
      (c < s.chans.length ∧ s.ownerOf c = none ∧ ∀ d, d < c → s.ownerOf d ≠ none)) ∧
    (s.firstFree = none ↔ ∀ c, c < s.chans.length → s.ownerOf c ≠ none)

/-- No more units are bound than there are channels (41_unit_and_pool.md section 4, property P3). -/
def Obligations.BoundUnitsNeverExceedTheChannels : Prop :=
  ∀ s : State, Inv s → (s.units.filter fun x => x.uch.isSome).length ≤ s.cfg.nChan

/-- While a channel's binding is being changed its firing handler is not enabled: before each of A1, A2, A3 and A4
of an acquire (A3 names the unit, so its channel is the one that the A4 behind it names) and before L2 and L3
of a release (20_memory.md section 6, 41_unit_and_pool.md section 3; the split into micro-steps is decision
D21). That a schedule naming the handler there is refused is the model's choice (log 2). -/
def Obligations.FiringIsMaskedWhileTheBindingChanges : Prop :=
  ∀ (s : State) (c : Nat) (rest : List Move), Inv s →
    ((∃ u l, s.mq.head? = some (.a1 c u l)) ∨ (∃ l, s.mq.head? = some (.a2 c l)) ∨
      (∃ u q, s.mq = .a3 u :: .a4 c :: q) ∨ s.mq.head? = some (.a4 c) ∨ s.mq.head? = some (.l2 c) ∨ ∃ u, s.mq.head? = some (.l3 c u)) →
    step { s with sched := .fireIrq c :: rest } = .refused .fireIrqNotEnabled

/-! ### The zero-cross tracker -/

/-- The zero-cross handler, enabled exactly where `gie` and `zc_pend` are 1, on each occurrence, with everything it
leaves alone (42_zero_cross.md section 3, R123; the resynchronisation value is R124, its exact sum decision
D6). That a schedule naming it elsewhere is refused is the model's choice (log 2). -/
def Obligations.ZeroCrossHandlerRecordsAndResynchronises : Prop :=
  ∀ (s : State) (rest : List Move),
    (s.gie = true → s.zcPend = true → s.zcPol = .falling →
      step { s with sched := .zcIrq :: rest } =
        .next { s with sched := rest, zcFall := s.icr, zcPol := .rising, capcnt := 0, zcPend := false }) ∧
    (s.gie = true → s.zcPend = true → s.zcPol = .rising →
      ∃ v : U16, v.toNat = (s.zcFall.toNat + s.icr.toNat + 2 * s.cfg.half.toNat) / 4 ∧
      step { s with sched := .zcIrq :: rest } =
        .next { s with sched := rest, zcRise := s.icr, zcPol := .falling, capcnt := 0, pcnt0 := v, pcnt1 := v, zcPend := false }) ∧
    (s.gie = false ∨ s.zcPend = false →
      step { s with sched := .zcIrq :: rest } = .refused .zcIrqNotEnabled)

/-- The resynchronisation value is the exact quarter of the exact sum, whatever the timestamps, and symmetric in
them (42_zero_cross.md section 3, property P6; the exact sum is decision D6). -/
def Obligations.ResyncIsTheExactQuarterSum : Prop :=
  ∀ h f r : U16, (resync h f r).toNat = (f.toNat + r.toNat + 2 * h.toNat) / 4 ∧ resync h f r = resync h r f

/-- The capture timer counts modulo 65536, and an edge latches the count, sets the pending bit, and marks a lost
edge where one was pending after Boot (42_zero_cross.md sections 1 and 2; decisions D2, D13, D15). -/
def Obligations.CaptureTimerCountsAndEdgesLatch : Prop :=
  ∀ (s : State) (rest : List Move),
    (∃ v : U16, v.toNat = (s.capcnt.toNat + 1) % 65536 ∧
      step { s with sched := .capTick :: rest } = .next { s with sched := rest, capcnt := v }) ∧
    step { s with sched := .zcEdge :: rest } = .next { s with sched := rest, icr := s.capcnt, zcPend := true, fZcLost := s.fZcLost || (s.zcPend && s.gie) }

/-- A zero-cross handler between the reads of the two bytes of a timestamp tears it, the falling one between I1 and
I2 and the rising one between I3 and I4: the low byte is the old capture's and the high byte the new one's
(40_commands.md section 2, 70_reset_and_hazards.md section 4; the four separate reads are decision D19). -/
def Obligations.InfoReadCanTearATimestamp : Prop :=
  ∀ s : State, s.seq = .sRun → s.mq = [.i0, .i1, .i2, .i3, .i4, .i5] → s.gie = true → s.zcPend = true →
    (s.zcPol = .falling → s.sched = [.fg, .fg, .zcIrq, .fg] →
      ∃ t, RunsTo 4 s t ∧ t.tx = s.tx ++ infoHeader s.cfg ++ [lo8 s.zcFall, hi8 s.icr] ∧ t.zcFall = s.icr ∧
        t.mq = [.i3, .i4, .i5]) ∧
    (s.zcPol = .rising → s.sched = [.fg, .fg, .fg, .fg, .zcIrq, .fg] →
      ∃ t, RunsTo 6 s t ∧
        t.tx = s.tx ++ infoHeader s.cfg ++ [lo8 s.zcFall, hi8 s.zcFall, lo8 s.zcRise, hi8 s.icr] ∧
        t.zcRise = s.icr ∧ t.mq = [.i5])

/-! ### The phase timers and the firing handler -/

/-- A tick of a phase timer: the counter's next value, the other counter untouched, and for each channel of that
timer whose compare register equals the new value, and whose interrupt is enabled or latched, the match flag;
everything else is left alone (43_phase_timer.md sections 1 and 2; decisions D2, D8, D9, D22). -/
def Obligations.PhaseTickCountsAndMatches : Prop :=
  ∀ (s : State) (tm : Timer) (rest : List Move), ∃ t, step { s with sched := .phTick tm :: rest } = .next t ∧
    t = { s with sched := rest, pcnt0 := t.pcnt0, pcnt1 := t.pcnt1, chans := t.chans } ∧
    (t.pcnt tm).toNat = (if s.pcnt tm = s.cfg.phaseTop ∨ (s.pcnt tm).toNat = 65535 then 0 else (s.pcnt tm).toNat + 1) ∧
    (∀ tm', tm' ≠ tm → t.pcnt tm' = s.pcnt tm') ∧
    ∀ c, t.chan? c = (s.chan? c).map fun ch =>
      { ch with mf := ch.mf || (decide (timerOf s.cfg c = tm) && decide (t.pcnt tm = ch.cmp) && (ch.ie || s.cfg.latchDisabled)) }

/-- Only a tick raises a match flag: no other step of any agent does (43_phase_timer.md section 2; that a write
never matches is decision D8). -/
def Obligations.OnlyTicksRaiseAMatchFlag : Prop :=
  ∀ s t : State, step s = .next t → (∀ tm, s.nextMove ≠ .phTick tm) →
    ∀ c ch', t.chan? c = some ch' → ch'.mf = true → ∃ ch, s.chan? c = some ch ∧ ch.mf = true

/-- The firing handler of a channel, enabled exactly where `gie`, `ie` and `mf` are 1: it clears the flag and
pulses the owner's pin; without an owner it clears the flag, pulses nothing and sets the mark
(43_phase_timer.md sections 3 and 4; the mark is decision D23). That a schedule naming it where it is not
enabled is refused is the model's choice (log 2). -/
def Obligations.FiringHandlerPulsesTheOwner : Prop :=
  ∀ (s : State) (c : Nat) (ch : Channel) (rest : List Move), s.chan? c = some ch →
    (∀ u, s.gie = true → ch.ie = true → ch.mf = true → ch.owner = some u →
      step { s with sched := .fireIrq c :: rest } =
        .next { s with sched := rest, chans := s.chans.set c { ch with mf := false }, pulses := s.pulses ++ [u] }) ∧
    (s.gie = true → ch.ie = true → ch.mf = true → ch.owner = none →
      step { s with sched := .fireIrq c :: rest } =
        .next { s with sched := rest, chans := s.chans.set c { ch with mf := false }, fTornLink := true }) ∧
    (s.gie = false ∨ ch.ie = false ∨ ch.mf = false →
      step { s with sched := .fireIrq c :: rest } = .refused .fireIrqNotEnabled)

/-- A tick onto the compare value of an enabled bound channel, then its handler, is exactly one pulse on the
owner's pin, and the flag is down again (43_phase_timer.md section 5; decisions D8, D9). -/
def Obligations.MatchThenHandlerIsOnePulse : Prop :=
  ∀ (s : State) (c u : Nat) (ch : Channel), s.gie = true → s.chan? c = some ch → ch.ie = true →
    ch.owner = some u → phaseNext s.cfg (s.pcnt (timerOf s.cfg c)) = ch.cmp →
    s.sched = [.phTick (timerOf s.cfg c), .fireIrq c] →
    ∃ t, RunsTo 2 s t ∧ t.pulses = s.pulses ++ [u] ∧ t.chan? c = some { ch with mf := false } ∧ t.units = s.units

/-- Two pending firing handlers may run in either order, and leave the same registers; only the order of the two
pulses differs (60_exceptions.md section 3; that any order is admitted is decision D11, the schedule log 1). -/
def Obligations.FiringHandlersRunInAnyOrder : Prop :=
  ∀ (s : State) (c d u v : Nat) (x y : Channel), c ≠ d → s.gie = true →
    s.chan? c = some x → x.ie = true → x.mf = true → x.owner = some u →
    s.chan? d = some y → y.ie = true → y.mf = true → y.owner = some v →
    ∃ t : State, RunsTo 2 { s with sched := [.fireIrq c, .fireIrq d] } { t with pulses := s.pulses ++ [u, v] } ∧
      RunsTo 2 { s with sched := [.fireIrq d, .fireIrq c] } { t with pulses := s.pulses ++ [v, u] }

/-! ### The receive ring, boot and reset -/

/-- A received byte lands in the cell at the write cursor, no other cell changes, and the canonical form is kept;
where the advanced cursor meets the read cursor the mark is set and the ring reads as empty. While `gie` is 0
there is no such step (20_memory.md section 2; decisions D16, D24, log 2). -/
def Obligations.ReceivedByteLandsAtTheWriteCursor : Prop :=
  ∀ (s : State) (b : Byte) (rest : List Move),
    (s.gie = true → s.wr < s.cfg.rxcap → ∃ t, step { s with sched := .rxByte b :: rest } = .next t ∧
      t = { s with
        sched := rest
        rxbuf := t.rxbuf
        wr := (s.wr + 1) % s.cfg.rxcap
        fRxOverrun := s.fRxOverrun || decide ((s.wr + 1) % s.cfg.rxcap = s.rd) } ∧
      t.rxbuf.read s.wr = some b ∧ (∀ a, a ≠ s.wr → t.rxbuf.read a = s.rxbuf.read a) ∧
      (s.rxbuf.wf → t.rxbuf.wf) ∧ ((s.wr + 1) % s.cfg.rxcap = s.rd → t.fRxOverrun = true ∧ t.unread = 0)) ∧
    (s.gie = false → step { s with sched := .rxByte b :: rest } = .refused .rxWhileDisabled)

/-- Boot sends the handshake, enables interrupts and enters the lead state, in one step, and is what the
foreground does in S_BOOT (70_reset_and_hazards.md section 2; the one step is decision D24, the three ASCII
codes log 13). -/
def Obligations.BootSendsTheHandshake : Prop :=
  ∀ s : State, s.seq = .sBoot → s.sched = [] →
    step s = .next { s with tx := s.tx ++ [6, 0, 0, 0, 0x42, 0x65, 0x6E], gie := true, seq := .sLead }

/-- The step Reset, in every state: every register and every history takes its reset value, of which
`ResetStateHasTheStatedValues` gives the table; so every output is Off and unbound and every channel free,
whatever was set before, the result depends on the configuration alone, and the foreground then sends the
handshake as the first bytes (70_reset_and_hazards.md sections 1, 2 and 4; the values not in the source are
decision D12, the handshake's place D24). That the configuration and the schedule still to come stay is the
model's choice (log 7). -/
def Obligations.ResetKeepsNothing : Prop :=
  (∀ (s : State) (rest : List Move), ∃ t, step { s with sched := .reset :: rest } = .next t ∧
    t = { State.resetWith s.cfg with sched := rest } ∧ t.units.length = s.cfg.nUnit ∧ t.chans.length = s.cfg.nChan ∧
    (∀ u x, t.unit? u = some x → x.ustate = .off ∧ x.uch = none) ∧
    (∀ c ch, t.chan? c = some ch → ch.owner = none) ∧ ∃ v, fgStep t = .next v ∧ v.tx = handshake) ∧
  ∀ (s₁ s₂ : State) (rest : List Move), s₁.cfg = s₂.cfg →
    step { s₁ with sched := .reset :: rest } = step { s₂ with sched := .reset :: rest }

/-- The state after reset: the values of 10_state.md section 9 (unit state and channel binding from the source,
the others decision D12, the polarity D14), in every configuration, and no cell of the ring written (log 8). -/
def Obligations.ResetStateHasTheStatedValues : Prop :=
  ∀ c : Cfg, ∀ s, s = State.resetWith c → s.cfg = c ∧ s.units = List.replicate c.nUnit ⟨.off, none, false⟩ ∧
    s.chans = List.replicate c.nChan ⟨none, 0, 0, false, false⟩ ∧ s.zcFall = 0 ∧ s.zcRise = 0 ∧ s.capcnt = 0 ∧
    s.icr = 0 ∧ s.zcPol = c.zcPolReset ∧ s.zcPend = false ∧ s.gie = false ∧ s.pcnt0 = 0 ∧ s.pcnt1 = 0 ∧ s.rd = 0 ∧
    s.wr = 0 ∧ s.seq = .sBoot ∧ s.rOp = 0 ∧ s.rId = 0 ∧ s.mq = [] ∧ s.tx = [] ∧ s.pulses = [] ∧ s.flushes = 0 ∧
    s.unmarked ∧ ∀ a, s.rxbuf.read a = none

/-- A configuration is refused exactly where it breaks one of the bounds of R1 (the counts), R2 (the half period
and the table: 101 entries, clause (a) not increasing, clause (b) compare values strictly decreasing), R3 (the
opcodes) or section 4 (the ring, the timers) of 00_scope.md, each written out here; every other one, and so
every well-formed one, is accepted and starts in its reset state (the bounds on the counts are decision D30,
the refusal is log 4). -/
def Obligations.IllFormedConfigurationIsRefused : Prop :=
  ∀ c : Cfg,
    let entry := fun p => (c.levelTable.getD p 0).toNat
    let counts := c.nUnit = 0 ∨ 255 < c.nUnit ∨ 255 < 3 + 4 + 4 * c.nChan + 3 * c.nUnit
    let table := c.half.toNat = 0 ∨ c.levelTable.length ≠ 101 ∨ (∃ p, p < 100 ∧ entry p < entry (p + 1)) ∨
      ∃ p₁ p₂, 1 ≤ p₁ ∧ p₁ < p₂ ∧ p₂ ≤ 99 ∧ entry p₁ * c.half.toNat / 65536 ≤ entry p₂ * c.half.toNat / 65536
    let opcodes := c.opNothing = c.opOff ∨ c.opNothing = 1 ∨ c.opNothing = 2 ∨ c.opNothing = 4 ∨ c.opOff = 1 ∨
      c.opOff = 2 ∨ c.opOff = 4
    let sizes := c.rxcap < 2 ∨ c.timers.length ≠ c.nChan
    (counts ∨ table ∨ opcodes ∨ sizes → configured c = .refused .notAConfiguration) ∧
    (¬ (counts ∨ table ∨ opcodes ∨ sizes) → configured c = .next (State.resetWith c)) ∧
    (c.WF → configured c = .next (State.resetWith c))

/-! ### The whole machine -/

/-- Every step of every agent keeps the invariant: the link between units and channels, the masks, the levels, the
sequencer's latches, the ring, the handshake (10_state.md section 2; decisions D9, D10, D21, D26). -/
def Obligations.EveryStepKeepsTheInvariant : Prop :=
  ∀ s t : State, Inv s → step s = .next t → Inv t

/-- The reset state of every well-formed configuration has the invariant, under every schedule, and so has the
reset state of the core, whatever its free calibration (log 5, log 6). -/
def Obligations.ResetStateHasTheInvariant : Prop :=
  (∀ (c : Cfg) (l : List Move), c.WF → Inv { State.resetWith c with sched := l }) ∧ Inv State.reset

/-- No step from a state with the invariant faults: every fault of the model marks a state no run reaches
(log 8, log 9). -/
def Obligations.InvariantExcludesEveryFault : Prop :=
  ∀ (s : State) (f : Fault), Inv s → step s ≠ .fault f

/-- Under every schedule and every received byte, no run from the reset of a well-formed configuration faults, and
the firing handler never finds a channel without an owner (41_unit_and_pool.md section 3, the ordering
invariant of Release). -/
def Obligations.NoRunFromResetFaultsOrTearsALink : Prop :=
  ∀ (c : Cfg) (l : List Move) (k : Nat), c.WF →
    (∀ f, Host.Core.run Sys2Proof.core k ({ State.resetWith c with sched := l } : State) ≠ .fault f) ∧
    ∀ t, RunsTo k { State.resetWith c with sched := l } t → t.fTornLink = false

/-- No step of an agent other than the foreground writes a register the foreground alone writes: the units, the
bindings, levels, compare registers and enables of the channels, the read cursor, the sequencer, the output
(60_exceptions.md sections 4 and 5; decision D11). -/
def Obligations.HandlersLeaveTheForegroundAlone : Prop :=
  ∀ s t : State, step s = .next t → s.nextMove ≠ .fg → s.nextMove ≠ .reset →
    t.cfg = s.cfg ∧ t.units = s.units ∧ t.rd = s.rd ∧ t.seq = s.seq ∧ t.mq = s.mq ∧ t.rOp = s.rOp ∧ t.rId = s.rId ∧
    t.tx = s.tx ∧ t.flushes = s.flushes ∧ t.gie = s.gie ∧
    ∀ c, (t.chan? c).map (fun ch => (ch.owner, ch.lvl, ch.cmp, ch.ie)) =
      (s.chan? c).map (fun ch => (ch.owner, ch.lvl, ch.cmp, ch.ie))

/-- No step of the foreground writes the zero-cross tracker, a counter, the receive RAM or a mark, and it writes
the write cursor only in CurReset (20_memory.md section 5, 60_exceptions.md section 5; decision D18). -/
def Obligations.ForegroundLeavesTheTrackerAlone : Prop :=
  ∀ s t : State, step s = .next t → s.nextMove = .fg →
    t.cfg = s.cfg ∧ t.zcFall = s.zcFall ∧ t.zcRise = s.zcRise ∧ t.zcPol = s.zcPol ∧ t.capcnt = s.capcnt ∧
    t.icr = s.icr ∧ t.zcPend = s.zcPend ∧ t.pcnt0 = s.pcnt0 ∧ t.pcnt1 = s.pcnt1 ∧ t.rxbuf = s.rxbuf ∧
    t.fRxOverrun = s.fRxOverrun ∧ t.fTornLink = s.fTornLink ∧ t.fZcLost = s.fZcLost ∧
    (t.wr = s.wr ∨ (t.wr = 0 ∧ s.seq = .sRun ∧ s.mq.head? = some .curReset))

/-- The complete transition relation of `seq` (40_commands.md section 4): reset leads to S_BOOT, no other agent
than the foreground changes it, and the foreground follows the table by the byte it takes, or by what is left
of the queue (the states are decision D26). -/
def Obligations.SequencerFollowsItsTransitionTable : Prop :=
  ∀ s t : State, s.cfg.OpcodesOk → step s = .next t →
    (s.nextMove = .reset → t.seq = .sBoot) ∧
    (s.nextMove ≠ .reset → s.nextMove ≠ .fg → t.seq = s.seq) ∧
    (s.nextMove = .fg →
      (s.seq = .sBoot → t.seq = .sLead) ∧
      (s.waits → s.rd = s.wr → t.seq = s.seq) ∧
      (∀ b, s.rd ≠ s.wr → s.rxbuf.read s.rd = some b →
        (s.seq = .sLead → t.seq = if b = 0x5C then .sOpc else .sRun) ∧
        (s.seq = .sOpc → t.rOp = b ∧ t.seq =
          if b = s.cfg.opNothing then .sLead else if b = 2 ∨ b = s.cfg.opOff ∨ b = 4 then .sId else .sRun) ∧
        (s.seq = .sId → s.rOp = 2 ∨ s.rOp = s.cfg.opOff → t.seq = .sRun) ∧
        (s.seq = .sId → s.rOp = 4 → t.seq = .sLvl) ∧
        (s.seq = .sLvl → s.rOp = 4 → t.seq = .sRun)) ∧
      (s.seq = .sRun → t.mq = s.mq.tail ∧ t.seq = if s.mq.length = 1 then .sLead else .sRun))

/-- Histories only grow, marks and `gie` are never cleared, and the configuration never changes, in any step but a
reset (10_state.md sections 4, 7 and 8; the marks are decisions D13, D16, D23, `gie` D24). -/
def Obligations.HistoriesGrowAndMarksStay : Prop :=
  ∀ s t : State, step s = .next t → s.nextMove ≠ .reset →
    t.cfg = s.cfg ∧ s.tx <+: t.tx ∧ s.pulses <+: t.pulses ∧ s.flushes ≤ t.flushes ∧
    (s.gie = true → t.gie = true) ∧ (s.fRxOverrun = true → t.fRxOverrun = true) ∧
    (s.fTornLink = true → t.fTornLink = true) ∧ (s.fZcLost = true → t.fZcLost = true)

/-- After Boot, capture ticks and edges commute with every step of the foreground: their order is not observable
(00_scope.md section 5, 41_unit_and_pool.md section 4; decisions D2, D11). -/
def Obligations.TicksAndEdgesCommuteWithTheForeground : Prop :=
  ∀ (s t : State) (m : Move), s.seq ≠ .sBoot → (m = .capTick ∨ m = .zcEdge) →
    (RunsTo 2 { s with sched := [m, .fg] } t ↔ RunsTo 2 { s with sched := [.fg, m] } t)
end

