-- ==== Sys2Proof/Laws/Memory.lean ====
section
/-!
SUPPORT. The receive RAM: a read after a write, the canonical form under every operation, and the cells
of the reset state.
-/

namespace Sys2Proof.Machine

/-- A read after a write to the same cell gives the byte written. -/
@[simp] theorem Memory.read_write_same (m : Memory) (a : Nat) (b : Byte) : (m.write a b).read a = some b := by
  induction m with
  | nil => simp [Memory.write, Memory.read]
  | cons e rest ih =>
    obtain ⟨k, v⟩ := e
    unfold Memory.write
    split
    · simp [Memory.read]
    · split
      · simp [Memory.read]
      · simp [Memory.read, ih, show k ≠ a by omega]

/-- A write leaves every other cell alone. -/
theorem Memory.read_write_ne (m : Memory) {a a' : Nat} (b : Byte) (h : a' ≠ a) :
    (m.write a b).read a' = m.read a' := by
  induction m with
  | nil => simp [Memory.write, Memory.read, Ne.symm h]
  | cons e rest ih =>
    obtain ⟨k, v⟩ := e
    unfold Memory.write
    split
    · simp [Memory.read, Ne.symm h]
    · split
      · rename_i h2
        simp [Memory.read, Ne.symm h, show k ≠ a' by omega]
      · simp [Memory.read, ih]

/-- The addresses after a write are the old ones and the one written. -/
theorem Memory.mem_write_keys {m : Memory} {a k : Nat} {b : Byte} (h : k ∈ (m.write a b).map (·.1)) :
    k = a ∨ k ∈ m.map (·.1) := by
  induction m with
  | nil => simpa [Memory.write] using h
  | cons e rest ih =>
    obtain ⟨k0, v0⟩ := e
    unfold Memory.write at h
    split at h
    · simpa using h
    · split at h
      · rcases List.mem_cons.mp h with h | h
        · exact .inl h
        · exact .inr (List.mem_cons_of_mem _ h)
      · rcases List.mem_cons.mp h with h | h
        · exact .inr (h ▸ List.mem_cons_self)
        · exact (ih h).imp_right (List.mem_cons_of_mem _)

/-- A write keeps the canonical form. -/
theorem Memory.write_wf {m : Memory} (a : Nat) (b : Byte) (h : m.wf) : (m.write a b).wf := by
  induction m with
  | nil => simp [Memory.write, Memory.wf]
  | cons e rest ih =>
    obtain ⟨k, v⟩ := e
    obtain ⟨hk, hr⟩ := List.pairwise_cons.mp h
    unfold Memory.write
    split
    · rename_i hlt
      exact List.pairwise_cons.mpr ⟨fun x hx => by
        rcases List.mem_cons.mp hx with hx | hx
        · exact hx ▸ hlt
        · exact Nat.lt_trans hlt (hk x hx), h⟩
    · split
      · rename_i heq
        exact List.pairwise_cons.mpr ⟨fun x hx => heq ▸ hk x hx, hr⟩
      · exact List.pairwise_cons.mpr ⟨fun x hx => by
          rcases Memory.mem_write_keys hx with hx | hx
          · subst hx
            show k < x
            omega
          · exact hk x hx, ih hr⟩

/-- The empty RAM of the reset state is canonical. -/
theorem Memory.nil_wf : Memory.wf [] := List.Pairwise.nil

/-- The reset state's memory is canonical, in every configuration. -/
theorem State.resetWith_rxbuf_wf (c : Cfg) : (State.resetWith c).rxbuf.wf := Memory.nil_wf

/-- A byte the block stores keeps the canonical form. -/
theorem storeByte_rxbuf_wf {s : State} (b : Byte) (h : s.rxbuf.wf) : (storeByte b s).rxbuf.wf :=
  Memory.write_wf _ _ h

/-- Laying a frame keeps the canonical form. -/
theorem layBytes_wf (c : Cfg) (bs : List Byte) : ∀ (a : Nat) (m : Memory), m.wf → (layBytes c a bs m).wf := by
  induction bs with
  | nil => exact fun _ _ h => h
  | cons b rest ih => exact fun a m h => ih _ _ (Memory.write_wf _ _ h)

end Sys2Proof.Machine
end

