-- ==== Sys2Proof/Laws/State.lean ====
section
/-!
SUPPORT. One lemma per field of State per named update of Machine/Ops.lean: what the update writes, and
that it writes nothing else. All true by rfl, so no later proof unfolds an update.
-/

namespace Sys2Proof.Machine

/-! ### `State.setUnit` -/

@[simp] theorem State.setUnit_cfg (s : State) (u : Nat) (x : PowerUnit) : (s.setUnit u x).cfg = s.cfg := rfl
@[simp] theorem State.setUnit_units (s : State) (u : Nat) (x : PowerUnit) : (s.setUnit u x).units = s.units.set (u - 1) x := rfl
@[simp] theorem State.setUnit_chans (s : State) (u : Nat) (x : PowerUnit) : (s.setUnit u x).chans = s.chans := rfl
@[simp] theorem State.setUnit_zcFall (s : State) (u : Nat) (x : PowerUnit) : (s.setUnit u x).zcFall = s.zcFall := rfl
@[simp] theorem State.setUnit_zcRise (s : State) (u : Nat) (x : PowerUnit) : (s.setUnit u x).zcRise = s.zcRise := rfl
@[simp] theorem State.setUnit_zcPol (s : State) (u : Nat) (x : PowerUnit) : (s.setUnit u x).zcPol = s.zcPol := rfl
@[simp] theorem State.setUnit_capcnt (s : State) (u : Nat) (x : PowerUnit) : (s.setUnit u x).capcnt = s.capcnt := rfl
@[simp] theorem State.setUnit_icr (s : State) (u : Nat) (x : PowerUnit) : (s.setUnit u x).icr = s.icr := rfl
@[simp] theorem State.setUnit_zcPend (s : State) (u : Nat) (x : PowerUnit) : (s.setUnit u x).zcPend = s.zcPend := rfl
@[simp] theorem State.setUnit_pcnt0 (s : State) (u : Nat) (x : PowerUnit) : (s.setUnit u x).pcnt0 = s.pcnt0 := rfl
@[simp] theorem State.setUnit_pcnt1 (s : State) (u : Nat) (x : PowerUnit) : (s.setUnit u x).pcnt1 = s.pcnt1 := rfl
@[simp] theorem State.setUnit_gie (s : State) (u : Nat) (x : PowerUnit) : (s.setUnit u x).gie = s.gie := rfl
@[simp] theorem State.setUnit_rxbuf (s : State) (u : Nat) (x : PowerUnit) : (s.setUnit u x).rxbuf = s.rxbuf := rfl
@[simp] theorem State.setUnit_rd (s : State) (u : Nat) (x : PowerUnit) : (s.setUnit u x).rd = s.rd := rfl
@[simp] theorem State.setUnit_wr (s : State) (u : Nat) (x : PowerUnit) : (s.setUnit u x).wr = s.wr := rfl
@[simp] theorem State.setUnit_seq (s : State) (u : Nat) (x : PowerUnit) : (s.setUnit u x).seq = s.seq := rfl
@[simp] theorem State.setUnit_rOp (s : State) (u : Nat) (x : PowerUnit) : (s.setUnit u x).rOp = s.rOp := rfl
@[simp] theorem State.setUnit_rId (s : State) (u : Nat) (x : PowerUnit) : (s.setUnit u x).rId = s.rId := rfl
@[simp] theorem State.setUnit_mq (s : State) (u : Nat) (x : PowerUnit) : (s.setUnit u x).mq = s.mq := rfl
@[simp] theorem State.setUnit_tx (s : State) (u : Nat) (x : PowerUnit) : (s.setUnit u x).tx = s.tx := rfl
@[simp] theorem State.setUnit_pulses (s : State) (u : Nat) (x : PowerUnit) : (s.setUnit u x).pulses = s.pulses := rfl
@[simp] theorem State.setUnit_flushes (s : State) (u : Nat) (x : PowerUnit) : (s.setUnit u x).flushes = s.flushes := rfl
@[simp] theorem State.setUnit_fRxOverrun (s : State) (u : Nat) (x : PowerUnit) : (s.setUnit u x).fRxOverrun = s.fRxOverrun := rfl
@[simp] theorem State.setUnit_fTornLink (s : State) (u : Nat) (x : PowerUnit) : (s.setUnit u x).fTornLink = s.fTornLink := rfl
@[simp] theorem State.setUnit_fZcLost (s : State) (u : Nat) (x : PowerUnit) : (s.setUnit u x).fZcLost = s.fZcLost := rfl
@[simp] theorem State.setUnit_sched (s : State) (u : Nat) (x : PowerUnit) : (s.setUnit u x).sched = s.sched := rfl

/-! ### `State.setChan` -/

@[simp] theorem State.setChan_cfg (s : State) (c : Nat) (x : Channel) : (s.setChan c x).cfg = s.cfg := rfl
@[simp] theorem State.setChan_units (s : State) (c : Nat) (x : Channel) : (s.setChan c x).units = s.units := rfl
@[simp] theorem State.setChan_chans (s : State) (c : Nat) (x : Channel) : (s.setChan c x).chans = s.chans.set c x := rfl
@[simp] theorem State.setChan_zcFall (s : State) (c : Nat) (x : Channel) : (s.setChan c x).zcFall = s.zcFall := rfl
@[simp] theorem State.setChan_zcRise (s : State) (c : Nat) (x : Channel) : (s.setChan c x).zcRise = s.zcRise := rfl
@[simp] theorem State.setChan_zcPol (s : State) (c : Nat) (x : Channel) : (s.setChan c x).zcPol = s.zcPol := rfl
@[simp] theorem State.setChan_capcnt (s : State) (c : Nat) (x : Channel) : (s.setChan c x).capcnt = s.capcnt := rfl
@[simp] theorem State.setChan_icr (s : State) (c : Nat) (x : Channel) : (s.setChan c x).icr = s.icr := rfl
@[simp] theorem State.setChan_zcPend (s : State) (c : Nat) (x : Channel) : (s.setChan c x).zcPend = s.zcPend := rfl
@[simp] theorem State.setChan_pcnt0 (s : State) (c : Nat) (x : Channel) : (s.setChan c x).pcnt0 = s.pcnt0 := rfl
@[simp] theorem State.setChan_pcnt1 (s : State) (c : Nat) (x : Channel) : (s.setChan c x).pcnt1 = s.pcnt1 := rfl
@[simp] theorem State.setChan_gie (s : State) (c : Nat) (x : Channel) : (s.setChan c x).gie = s.gie := rfl
@[simp] theorem State.setChan_rxbuf (s : State) (c : Nat) (x : Channel) : (s.setChan c x).rxbuf = s.rxbuf := rfl
@[simp] theorem State.setChan_rd (s : State) (c : Nat) (x : Channel) : (s.setChan c x).rd = s.rd := rfl
@[simp] theorem State.setChan_wr (s : State) (c : Nat) (x : Channel) : (s.setChan c x).wr = s.wr := rfl
@[simp] theorem State.setChan_seq (s : State) (c : Nat) (x : Channel) : (s.setChan c x).seq = s.seq := rfl
@[simp] theorem State.setChan_rOp (s : State) (c : Nat) (x : Channel) : (s.setChan c x).rOp = s.rOp := rfl
@[simp] theorem State.setChan_rId (s : State) (c : Nat) (x : Channel) : (s.setChan c x).rId = s.rId := rfl
@[simp] theorem State.setChan_mq (s : State) (c : Nat) (x : Channel) : (s.setChan c x).mq = s.mq := rfl
@[simp] theorem State.setChan_tx (s : State) (c : Nat) (x : Channel) : (s.setChan c x).tx = s.tx := rfl
@[simp] theorem State.setChan_pulses (s : State) (c : Nat) (x : Channel) : (s.setChan c x).pulses = s.pulses := rfl
@[simp] theorem State.setChan_flushes (s : State) (c : Nat) (x : Channel) : (s.setChan c x).flushes = s.flushes := rfl
@[simp] theorem State.setChan_fRxOverrun (s : State) (c : Nat) (x : Channel) : (s.setChan c x).fRxOverrun = s.fRxOverrun := rfl
@[simp] theorem State.setChan_fTornLink (s : State) (c : Nat) (x : Channel) : (s.setChan c x).fTornLink = s.fTornLink := rfl
@[simp] theorem State.setChan_fZcLost (s : State) (c : Nat) (x : Channel) : (s.setChan c x).fZcLost = s.fZcLost := rfl
@[simp] theorem State.setChan_sched (s : State) (c : Nat) (x : Channel) : (s.setChan c x).sched = s.sched := rfl

/-! ### `State.popByte` -/

@[simp] theorem State.popByte_cfg (s : State) : s.popByte.cfg = s.cfg := rfl
@[simp] theorem State.popByte_units (s : State) : s.popByte.units = s.units := rfl
@[simp] theorem State.popByte_chans (s : State) : s.popByte.chans = s.chans := rfl
@[simp] theorem State.popByte_zcFall (s : State) : s.popByte.zcFall = s.zcFall := rfl
@[simp] theorem State.popByte_zcRise (s : State) : s.popByte.zcRise = s.zcRise := rfl
@[simp] theorem State.popByte_zcPol (s : State) : s.popByte.zcPol = s.zcPol := rfl
@[simp] theorem State.popByte_capcnt (s : State) : s.popByte.capcnt = s.capcnt := rfl
@[simp] theorem State.popByte_icr (s : State) : s.popByte.icr = s.icr := rfl
@[simp] theorem State.popByte_zcPend (s : State) : s.popByte.zcPend = s.zcPend := rfl
@[simp] theorem State.popByte_pcnt0 (s : State) : s.popByte.pcnt0 = s.pcnt0 := rfl
@[simp] theorem State.popByte_pcnt1 (s : State) : s.popByte.pcnt1 = s.pcnt1 := rfl
@[simp] theorem State.popByte_gie (s : State) : s.popByte.gie = s.gie := rfl
@[simp] theorem State.popByte_rxbuf (s : State) : s.popByte.rxbuf = s.rxbuf := rfl
@[simp] theorem State.popByte_rd (s : State) : s.popByte.rd = ringNext s.cfg s.rd := rfl
@[simp] theorem State.popByte_wr (s : State) : s.popByte.wr = s.wr := rfl
@[simp] theorem State.popByte_seq (s : State) : s.popByte.seq = s.seq := rfl
@[simp] theorem State.popByte_rOp (s : State) : s.popByte.rOp = s.rOp := rfl
@[simp] theorem State.popByte_rId (s : State) : s.popByte.rId = s.rId := rfl
@[simp] theorem State.popByte_mq (s : State) : s.popByte.mq = s.mq := rfl
@[simp] theorem State.popByte_tx (s : State) : s.popByte.tx = s.tx := rfl
@[simp] theorem State.popByte_pulses (s : State) : s.popByte.pulses = s.pulses := rfl
@[simp] theorem State.popByte_flushes (s : State) : s.popByte.flushes = s.flushes := rfl
@[simp] theorem State.popByte_fRxOverrun (s : State) : s.popByte.fRxOverrun = s.fRxOverrun := rfl
@[simp] theorem State.popByte_fTornLink (s : State) : s.popByte.fTornLink = s.fTornLink := rfl
@[simp] theorem State.popByte_fZcLost (s : State) : s.popByte.fZcLost = s.fZcLost := rfl
@[simp] theorem State.popByte_sched (s : State) : s.popByte.sched = s.sched := rfl

/-! ### `State.resetCursors` -/

@[simp] theorem State.resetCursors_cfg (s : State) : s.resetCursors.cfg = s.cfg := rfl
@[simp] theorem State.resetCursors_units (s : State) : s.resetCursors.units = s.units := rfl
@[simp] theorem State.resetCursors_chans (s : State) : s.resetCursors.chans = s.chans := rfl
@[simp] theorem State.resetCursors_zcFall (s : State) : s.resetCursors.zcFall = s.zcFall := rfl
@[simp] theorem State.resetCursors_zcRise (s : State) : s.resetCursors.zcRise = s.zcRise := rfl
@[simp] theorem State.resetCursors_zcPol (s : State) : s.resetCursors.zcPol = s.zcPol := rfl
@[simp] theorem State.resetCursors_capcnt (s : State) : s.resetCursors.capcnt = s.capcnt := rfl
@[simp] theorem State.resetCursors_icr (s : State) : s.resetCursors.icr = s.icr := rfl
@[simp] theorem State.resetCursors_zcPend (s : State) : s.resetCursors.zcPend = s.zcPend := rfl
@[simp] theorem State.resetCursors_pcnt0 (s : State) : s.resetCursors.pcnt0 = s.pcnt0 := rfl
@[simp] theorem State.resetCursors_pcnt1 (s : State) : s.resetCursors.pcnt1 = s.pcnt1 := rfl
@[simp] theorem State.resetCursors_gie (s : State) : s.resetCursors.gie = s.gie := rfl
@[simp] theorem State.resetCursors_rxbuf (s : State) : s.resetCursors.rxbuf = s.rxbuf := rfl
@[simp] theorem State.resetCursors_rd (s : State) : s.resetCursors.rd = 0 := rfl
@[simp] theorem State.resetCursors_wr (s : State) : s.resetCursors.wr = 0 := rfl
@[simp] theorem State.resetCursors_seq (s : State) : s.resetCursors.seq = s.seq := rfl
@[simp] theorem State.resetCursors_rOp (s : State) : s.resetCursors.rOp = s.rOp := rfl
@[simp] theorem State.resetCursors_rId (s : State) : s.resetCursors.rId = s.rId := rfl
@[simp] theorem State.resetCursors_mq (s : State) : s.resetCursors.mq = s.mq := rfl
@[simp] theorem State.resetCursors_tx (s : State) : s.resetCursors.tx = s.tx := rfl
@[simp] theorem State.resetCursors_pulses (s : State) : s.resetCursors.pulses = s.pulses := rfl
@[simp] theorem State.resetCursors_flushes (s : State) : s.resetCursors.flushes = s.flushes := rfl
@[simp] theorem State.resetCursors_fRxOverrun (s : State) : s.resetCursors.fRxOverrun = s.fRxOverrun := rfl
@[simp] theorem State.resetCursors_fTornLink (s : State) : s.resetCursors.fTornLink = s.fTornLink := rfl
@[simp] theorem State.resetCursors_fZcLost (s : State) : s.resetCursors.fZcLost = s.fZcLost := rfl
@[simp] theorem State.resetCursors_sched (s : State) : s.resetCursors.sched = s.sched := rfl

/-! ### `State.send` -/

@[simp] theorem State.send_cfg (s : State) (bs : List Byte) : (s.send bs).cfg = s.cfg := rfl
@[simp] theorem State.send_units (s : State) (bs : List Byte) : (s.send bs).units = s.units := rfl
@[simp] theorem State.send_chans (s : State) (bs : List Byte) : (s.send bs).chans = s.chans := rfl
@[simp] theorem State.send_zcFall (s : State) (bs : List Byte) : (s.send bs).zcFall = s.zcFall := rfl
@[simp] theorem State.send_zcRise (s : State) (bs : List Byte) : (s.send bs).zcRise = s.zcRise := rfl
@[simp] theorem State.send_zcPol (s : State) (bs : List Byte) : (s.send bs).zcPol = s.zcPol := rfl
@[simp] theorem State.send_capcnt (s : State) (bs : List Byte) : (s.send bs).capcnt = s.capcnt := rfl
@[simp] theorem State.send_icr (s : State) (bs : List Byte) : (s.send bs).icr = s.icr := rfl
@[simp] theorem State.send_zcPend (s : State) (bs : List Byte) : (s.send bs).zcPend = s.zcPend := rfl
@[simp] theorem State.send_pcnt0 (s : State) (bs : List Byte) : (s.send bs).pcnt0 = s.pcnt0 := rfl
@[simp] theorem State.send_pcnt1 (s : State) (bs : List Byte) : (s.send bs).pcnt1 = s.pcnt1 := rfl
@[simp] theorem State.send_gie (s : State) (bs : List Byte) : (s.send bs).gie = s.gie := rfl
@[simp] theorem State.send_rxbuf (s : State) (bs : List Byte) : (s.send bs).rxbuf = s.rxbuf := rfl
@[simp] theorem State.send_rd (s : State) (bs : List Byte) : (s.send bs).rd = s.rd := rfl
@[simp] theorem State.send_wr (s : State) (bs : List Byte) : (s.send bs).wr = s.wr := rfl
@[simp] theorem State.send_seq (s : State) (bs : List Byte) : (s.send bs).seq = s.seq := rfl
@[simp] theorem State.send_rOp (s : State) (bs : List Byte) : (s.send bs).rOp = s.rOp := rfl
@[simp] theorem State.send_rId (s : State) (bs : List Byte) : (s.send bs).rId = s.rId := rfl
@[simp] theorem State.send_mq (s : State) (bs : List Byte) : (s.send bs).mq = s.mq := rfl
@[simp] theorem State.send_tx (s : State) (bs : List Byte) : (s.send bs).tx = s.tx ++ bs := rfl
@[simp] theorem State.send_pulses (s : State) (bs : List Byte) : (s.send bs).pulses = s.pulses := rfl
@[simp] theorem State.send_flushes (s : State) (bs : List Byte) : (s.send bs).flushes = s.flushes := rfl
@[simp] theorem State.send_fRxOverrun (s : State) (bs : List Byte) : (s.send bs).fRxOverrun = s.fRxOverrun := rfl
@[simp] theorem State.send_fTornLink (s : State) (bs : List Byte) : (s.send bs).fTornLink = s.fTornLink := rfl
@[simp] theorem State.send_fZcLost (s : State) (bs : List Byte) : (s.send bs).fZcLost = s.fZcLost := rfl
@[simp] theorem State.send_sched (s : State) (bs : List Byte) : (s.send bs).sched = s.sched := rfl

/-! ### `State.txFlush` -/

@[simp] theorem State.txFlush_cfg (s : State) : s.txFlush.cfg = s.cfg := rfl
@[simp] theorem State.txFlush_units (s : State) : s.txFlush.units = s.units := rfl
@[simp] theorem State.txFlush_chans (s : State) : s.txFlush.chans = s.chans := rfl
@[simp] theorem State.txFlush_zcFall (s : State) : s.txFlush.zcFall = s.zcFall := rfl
@[simp] theorem State.txFlush_zcRise (s : State) : s.txFlush.zcRise = s.zcRise := rfl
@[simp] theorem State.txFlush_zcPol (s : State) : s.txFlush.zcPol = s.zcPol := rfl
@[simp] theorem State.txFlush_capcnt (s : State) : s.txFlush.capcnt = s.capcnt := rfl
@[simp] theorem State.txFlush_icr (s : State) : s.txFlush.icr = s.icr := rfl
@[simp] theorem State.txFlush_zcPend (s : State) : s.txFlush.zcPend = s.zcPend := rfl
@[simp] theorem State.txFlush_pcnt0 (s : State) : s.txFlush.pcnt0 = s.pcnt0 := rfl
@[simp] theorem State.txFlush_pcnt1 (s : State) : s.txFlush.pcnt1 = s.pcnt1 := rfl
@[simp] theorem State.txFlush_gie (s : State) : s.txFlush.gie = s.gie := rfl
@[simp] theorem State.txFlush_rxbuf (s : State) : s.txFlush.rxbuf = s.rxbuf := rfl
@[simp] theorem State.txFlush_rd (s : State) : s.txFlush.rd = s.rd := rfl
@[simp] theorem State.txFlush_wr (s : State) : s.txFlush.wr = s.wr := rfl
@[simp] theorem State.txFlush_seq (s : State) : s.txFlush.seq = s.seq := rfl
@[simp] theorem State.txFlush_rOp (s : State) : s.txFlush.rOp = s.rOp := rfl
@[simp] theorem State.txFlush_rId (s : State) : s.txFlush.rId = s.rId := rfl
@[simp] theorem State.txFlush_mq (s : State) : s.txFlush.mq = s.mq := rfl
@[simp] theorem State.txFlush_tx (s : State) : s.txFlush.tx = s.tx := rfl
@[simp] theorem State.txFlush_pulses (s : State) : s.txFlush.pulses = s.pulses := rfl
@[simp] theorem State.txFlush_flushes (s : State) : s.txFlush.flushes = s.flushes + 1 := rfl
@[simp] theorem State.txFlush_fRxOverrun (s : State) : s.txFlush.fRxOverrun = s.fRxOverrun := rfl
@[simp] theorem State.txFlush_fTornLink (s : State) : s.txFlush.fTornLink = s.fTornLink := rfl
@[simp] theorem State.txFlush_fZcLost (s : State) : s.txFlush.fZcLost = s.fZcLost := rfl
@[simp] theorem State.txFlush_sched (s : State) : s.txFlush.sched = s.sched := rfl

/-! ### `State.pulse` -/

@[simp] theorem State.pulse_cfg (s : State) (u : Nat) : (s.pulse u).cfg = s.cfg := rfl
@[simp] theorem State.pulse_units (s : State) (u : Nat) : (s.pulse u).units = s.units := rfl
@[simp] theorem State.pulse_chans (s : State) (u : Nat) : (s.pulse u).chans = s.chans := rfl
@[simp] theorem State.pulse_zcFall (s : State) (u : Nat) : (s.pulse u).zcFall = s.zcFall := rfl
@[simp] theorem State.pulse_zcRise (s : State) (u : Nat) : (s.pulse u).zcRise = s.zcRise := rfl
@[simp] theorem State.pulse_zcPol (s : State) (u : Nat) : (s.pulse u).zcPol = s.zcPol := rfl
@[simp] theorem State.pulse_capcnt (s : State) (u : Nat) : (s.pulse u).capcnt = s.capcnt := rfl
@[simp] theorem State.pulse_icr (s : State) (u : Nat) : (s.pulse u).icr = s.icr := rfl
@[simp] theorem State.pulse_zcPend (s : State) (u : Nat) : (s.pulse u).zcPend = s.zcPend := rfl
@[simp] theorem State.pulse_pcnt0 (s : State) (u : Nat) : (s.pulse u).pcnt0 = s.pcnt0 := rfl
@[simp] theorem State.pulse_pcnt1 (s : State) (u : Nat) : (s.pulse u).pcnt1 = s.pcnt1 := rfl
@[simp] theorem State.pulse_gie (s : State) (u : Nat) : (s.pulse u).gie = s.gie := rfl
@[simp] theorem State.pulse_rxbuf (s : State) (u : Nat) : (s.pulse u).rxbuf = s.rxbuf := rfl
@[simp] theorem State.pulse_rd (s : State) (u : Nat) : (s.pulse u).rd = s.rd := rfl
@[simp] theorem State.pulse_wr (s : State) (u : Nat) : (s.pulse u).wr = s.wr := rfl
@[simp] theorem State.pulse_seq (s : State) (u : Nat) : (s.pulse u).seq = s.seq := rfl
@[simp] theorem State.pulse_rOp (s : State) (u : Nat) : (s.pulse u).rOp = s.rOp := rfl
@[simp] theorem State.pulse_rId (s : State) (u : Nat) : (s.pulse u).rId = s.rId := rfl
@[simp] theorem State.pulse_mq (s : State) (u : Nat) : (s.pulse u).mq = s.mq := rfl
@[simp] theorem State.pulse_tx (s : State) (u : Nat) : (s.pulse u).tx = s.tx := rfl
@[simp] theorem State.pulse_pulses (s : State) (u : Nat) : (s.pulse u).pulses = s.pulses ++ [u] := rfl
@[simp] theorem State.pulse_flushes (s : State) (u : Nat) : (s.pulse u).flushes = s.flushes := rfl
@[simp] theorem State.pulse_fRxOverrun (s : State) (u : Nat) : (s.pulse u).fRxOverrun = s.fRxOverrun := rfl
@[simp] theorem State.pulse_fTornLink (s : State) (u : Nat) : (s.pulse u).fTornLink = s.fTornLink := rfl
@[simp] theorem State.pulse_fZcLost (s : State) (u : Nat) : (s.pulse u).fZcLost = s.fZcLost := rfl
@[simp] theorem State.pulse_sched (s : State) (u : Nat) : (s.pulse u).sched = s.sched := rfl

/-! ### `State.goto` -/

@[simp] theorem State.goto_cfg (s : State) (q : Seq) : (s.goto q).cfg = s.cfg := rfl
@[simp] theorem State.goto_units (s : State) (q : Seq) : (s.goto q).units = s.units := rfl
@[simp] theorem State.goto_chans (s : State) (q : Seq) : (s.goto q).chans = s.chans := rfl
@[simp] theorem State.goto_zcFall (s : State) (q : Seq) : (s.goto q).zcFall = s.zcFall := rfl
@[simp] theorem State.goto_zcRise (s : State) (q : Seq) : (s.goto q).zcRise = s.zcRise := rfl
@[simp] theorem State.goto_zcPol (s : State) (q : Seq) : (s.goto q).zcPol = s.zcPol := rfl
@[simp] theorem State.goto_capcnt (s : State) (q : Seq) : (s.goto q).capcnt = s.capcnt := rfl
@[simp] theorem State.goto_icr (s : State) (q : Seq) : (s.goto q).icr = s.icr := rfl
@[simp] theorem State.goto_zcPend (s : State) (q : Seq) : (s.goto q).zcPend = s.zcPend := rfl
@[simp] theorem State.goto_pcnt0 (s : State) (q : Seq) : (s.goto q).pcnt0 = s.pcnt0 := rfl
@[simp] theorem State.goto_pcnt1 (s : State) (q : Seq) : (s.goto q).pcnt1 = s.pcnt1 := rfl
@[simp] theorem State.goto_gie (s : State) (q : Seq) : (s.goto q).gie = s.gie := rfl
@[simp] theorem State.goto_rxbuf (s : State) (q : Seq) : (s.goto q).rxbuf = s.rxbuf := rfl
@[simp] theorem State.goto_rd (s : State) (q : Seq) : (s.goto q).rd = s.rd := rfl
@[simp] theorem State.goto_wr (s : State) (q : Seq) : (s.goto q).wr = s.wr := rfl
@[simp] theorem State.goto_seq (s : State) (q : Seq) : (s.goto q).seq = q := rfl
@[simp] theorem State.goto_rOp (s : State) (q : Seq) : (s.goto q).rOp = s.rOp := rfl
@[simp] theorem State.goto_rId (s : State) (q : Seq) : (s.goto q).rId = s.rId := rfl
@[simp] theorem State.goto_mq (s : State) (q : Seq) : (s.goto q).mq = s.mq := rfl
@[simp] theorem State.goto_tx (s : State) (q : Seq) : (s.goto q).tx = s.tx := rfl
@[simp] theorem State.goto_pulses (s : State) (q : Seq) : (s.goto q).pulses = s.pulses := rfl
@[simp] theorem State.goto_flushes (s : State) (q : Seq) : (s.goto q).flushes = s.flushes := rfl
@[simp] theorem State.goto_fRxOverrun (s : State) (q : Seq) : (s.goto q).fRxOverrun = s.fRxOverrun := rfl
@[simp] theorem State.goto_fTornLink (s : State) (q : Seq) : (s.goto q).fTornLink = s.fTornLink := rfl
@[simp] theorem State.goto_fZcLost (s : State) (q : Seq) : (s.goto q).fZcLost = s.fZcLost := rfl
@[simp] theorem State.goto_sched (s : State) (q : Seq) : (s.goto q).sched = s.sched := rfl

/-! ### `State.latchOp` -/

@[simp] theorem State.latchOp_cfg (s : State) (op : Byte) : (s.latchOp op).cfg = s.cfg := rfl
@[simp] theorem State.latchOp_units (s : State) (op : Byte) : (s.latchOp op).units = s.units := rfl
@[simp] theorem State.latchOp_chans (s : State) (op : Byte) : (s.latchOp op).chans = s.chans := rfl
@[simp] theorem State.latchOp_zcFall (s : State) (op : Byte) : (s.latchOp op).zcFall = s.zcFall := rfl
@[simp] theorem State.latchOp_zcRise (s : State) (op : Byte) : (s.latchOp op).zcRise = s.zcRise := rfl
@[simp] theorem State.latchOp_zcPol (s : State) (op : Byte) : (s.latchOp op).zcPol = s.zcPol := rfl
@[simp] theorem State.latchOp_capcnt (s : State) (op : Byte) : (s.latchOp op).capcnt = s.capcnt := rfl
@[simp] theorem State.latchOp_icr (s : State) (op : Byte) : (s.latchOp op).icr = s.icr := rfl
@[simp] theorem State.latchOp_zcPend (s : State) (op : Byte) : (s.latchOp op).zcPend = s.zcPend := rfl
@[simp] theorem State.latchOp_pcnt0 (s : State) (op : Byte) : (s.latchOp op).pcnt0 = s.pcnt0 := rfl
@[simp] theorem State.latchOp_pcnt1 (s : State) (op : Byte) : (s.latchOp op).pcnt1 = s.pcnt1 := rfl
@[simp] theorem State.latchOp_gie (s : State) (op : Byte) : (s.latchOp op).gie = s.gie := rfl
@[simp] theorem State.latchOp_rxbuf (s : State) (op : Byte) : (s.latchOp op).rxbuf = s.rxbuf := rfl
@[simp] theorem State.latchOp_rd (s : State) (op : Byte) : (s.latchOp op).rd = s.rd := rfl
@[simp] theorem State.latchOp_wr (s : State) (op : Byte) : (s.latchOp op).wr = s.wr := rfl
@[simp] theorem State.latchOp_seq (s : State) (op : Byte) : (s.latchOp op).seq = s.seq := rfl
@[simp] theorem State.latchOp_rOp (s : State) (op : Byte) : (s.latchOp op).rOp = op := rfl
@[simp] theorem State.latchOp_rId (s : State) (op : Byte) : (s.latchOp op).rId = s.rId := rfl
@[simp] theorem State.latchOp_mq (s : State) (op : Byte) : (s.latchOp op).mq = s.mq := rfl
@[simp] theorem State.latchOp_tx (s : State) (op : Byte) : (s.latchOp op).tx = s.tx := rfl
@[simp] theorem State.latchOp_pulses (s : State) (op : Byte) : (s.latchOp op).pulses = s.pulses := rfl
@[simp] theorem State.latchOp_flushes (s : State) (op : Byte) : (s.latchOp op).flushes = s.flushes := rfl
@[simp] theorem State.latchOp_fRxOverrun (s : State) (op : Byte) : (s.latchOp op).fRxOverrun = s.fRxOverrun := rfl
@[simp] theorem State.latchOp_fTornLink (s : State) (op : Byte) : (s.latchOp op).fTornLink = s.fTornLink := rfl
@[simp] theorem State.latchOp_fZcLost (s : State) (op : Byte) : (s.latchOp op).fZcLost = s.fZcLost := rfl
@[simp] theorem State.latchOp_sched (s : State) (op : Byte) : (s.latchOp op).sched = s.sched := rfl

/-! ### `State.latchId` -/

@[simp] theorem State.latchId_cfg (s : State) (id : Byte) : (s.latchId id).cfg = s.cfg := rfl
@[simp] theorem State.latchId_units (s : State) (id : Byte) : (s.latchId id).units = s.units := rfl
@[simp] theorem State.latchId_chans (s : State) (id : Byte) : (s.latchId id).chans = s.chans := rfl
@[simp] theorem State.latchId_zcFall (s : State) (id : Byte) : (s.latchId id).zcFall = s.zcFall := rfl
@[simp] theorem State.latchId_zcRise (s : State) (id : Byte) : (s.latchId id).zcRise = s.zcRise := rfl
@[simp] theorem State.latchId_zcPol (s : State) (id : Byte) : (s.latchId id).zcPol = s.zcPol := rfl
@[simp] theorem State.latchId_capcnt (s : State) (id : Byte) : (s.latchId id).capcnt = s.capcnt := rfl
@[simp] theorem State.latchId_icr (s : State) (id : Byte) : (s.latchId id).icr = s.icr := rfl
@[simp] theorem State.latchId_zcPend (s : State) (id : Byte) : (s.latchId id).zcPend = s.zcPend := rfl
@[simp] theorem State.latchId_pcnt0 (s : State) (id : Byte) : (s.latchId id).pcnt0 = s.pcnt0 := rfl
@[simp] theorem State.latchId_pcnt1 (s : State) (id : Byte) : (s.latchId id).pcnt1 = s.pcnt1 := rfl
@[simp] theorem State.latchId_gie (s : State) (id : Byte) : (s.latchId id).gie = s.gie := rfl
@[simp] theorem State.latchId_rxbuf (s : State) (id : Byte) : (s.latchId id).rxbuf = s.rxbuf := rfl
@[simp] theorem State.latchId_rd (s : State) (id : Byte) : (s.latchId id).rd = s.rd := rfl
@[simp] theorem State.latchId_wr (s : State) (id : Byte) : (s.latchId id).wr = s.wr := rfl
@[simp] theorem State.latchId_seq (s : State) (id : Byte) : (s.latchId id).seq = s.seq := rfl
@[simp] theorem State.latchId_rOp (s : State) (id : Byte) : (s.latchId id).rOp = s.rOp := rfl
@[simp] theorem State.latchId_rId (s : State) (id : Byte) : (s.latchId id).rId = id := rfl
@[simp] theorem State.latchId_mq (s : State) (id : Byte) : (s.latchId id).mq = s.mq := rfl
@[simp] theorem State.latchId_tx (s : State) (id : Byte) : (s.latchId id).tx = s.tx := rfl
@[simp] theorem State.latchId_pulses (s : State) (id : Byte) : (s.latchId id).pulses = s.pulses := rfl
@[simp] theorem State.latchId_flushes (s : State) (id : Byte) : (s.latchId id).flushes = s.flushes := rfl
@[simp] theorem State.latchId_fRxOverrun (s : State) (id : Byte) : (s.latchId id).fRxOverrun = s.fRxOverrun := rfl
@[simp] theorem State.latchId_fTornLink (s : State) (id : Byte) : (s.latchId id).fTornLink = s.fTornLink := rfl
@[simp] theorem State.latchId_fZcLost (s : State) (id : Byte) : (s.latchId id).fZcLost = s.fZcLost := rfl
@[simp] theorem State.latchId_sched (s : State) (id : Byte) : (s.latchId id).sched = s.sched := rfl

/-! ### `State.startRun` -/

@[simp] theorem State.startRun_cfg (s : State) (q : List MicroStep) : (s.startRun q).cfg = s.cfg := rfl
@[simp] theorem State.startRun_units (s : State) (q : List MicroStep) : (s.startRun q).units = s.units := rfl
@[simp] theorem State.startRun_chans (s : State) (q : List MicroStep) : (s.startRun q).chans = s.chans := rfl
@[simp] theorem State.startRun_zcFall (s : State) (q : List MicroStep) : (s.startRun q).zcFall = s.zcFall := rfl
@[simp] theorem State.startRun_zcRise (s : State) (q : List MicroStep) : (s.startRun q).zcRise = s.zcRise := rfl
@[simp] theorem State.startRun_zcPol (s : State) (q : List MicroStep) : (s.startRun q).zcPol = s.zcPol := rfl
@[simp] theorem State.startRun_capcnt (s : State) (q : List MicroStep) : (s.startRun q).capcnt = s.capcnt := rfl
@[simp] theorem State.startRun_icr (s : State) (q : List MicroStep) : (s.startRun q).icr = s.icr := rfl
@[simp] theorem State.startRun_zcPend (s : State) (q : List MicroStep) : (s.startRun q).zcPend = s.zcPend := rfl
@[simp] theorem State.startRun_pcnt0 (s : State) (q : List MicroStep) : (s.startRun q).pcnt0 = s.pcnt0 := rfl
@[simp] theorem State.startRun_pcnt1 (s : State) (q : List MicroStep) : (s.startRun q).pcnt1 = s.pcnt1 := rfl
@[simp] theorem State.startRun_gie (s : State) (q : List MicroStep) : (s.startRun q).gie = s.gie := rfl
@[simp] theorem State.startRun_rxbuf (s : State) (q : List MicroStep) : (s.startRun q).rxbuf = s.rxbuf := rfl
@[simp] theorem State.startRun_rd (s : State) (q : List MicroStep) : (s.startRun q).rd = s.rd := rfl
@[simp] theorem State.startRun_wr (s : State) (q : List MicroStep) : (s.startRun q).wr = s.wr := rfl
@[simp] theorem State.startRun_seq (s : State) (q : List MicroStep) : (s.startRun q).seq = .sRun := rfl
@[simp] theorem State.startRun_rOp (s : State) (q : List MicroStep) : (s.startRun q).rOp = s.rOp := rfl
@[simp] theorem State.startRun_rId (s : State) (q : List MicroStep) : (s.startRun q).rId = s.rId := rfl
@[simp] theorem State.startRun_mq (s : State) (q : List MicroStep) : (s.startRun q).mq = q := rfl
@[simp] theorem State.startRun_tx (s : State) (q : List MicroStep) : (s.startRun q).tx = s.tx := rfl
@[simp] theorem State.startRun_pulses (s : State) (q : List MicroStep) : (s.startRun q).pulses = s.pulses := rfl
@[simp] theorem State.startRun_flushes (s : State) (q : List MicroStep) : (s.startRun q).flushes = s.flushes := rfl
@[simp] theorem State.startRun_fRxOverrun (s : State) (q : List MicroStep) : (s.startRun q).fRxOverrun = s.fRxOverrun := rfl
@[simp] theorem State.startRun_fTornLink (s : State) (q : List MicroStep) : (s.startRun q).fTornLink = s.fTornLink := rfl
@[simp] theorem State.startRun_fZcLost (s : State) (q : List MicroStep) : (s.startRun q).fZcLost = s.fZcLost := rfl
@[simp] theorem State.startRun_sched (s : State) (q : List MicroStep) : (s.startRun q).sched = s.sched := rfl

/-! ### `State.setPcnt`: one case per timer, one lemma per field it leaves alone -/

@[simp] theorem State.setPcnt_t0 (s : State) (v : U16) : s.setPcnt .t0 v = { s with pcnt0 := v } := rfl
@[simp] theorem State.setPcnt_t1 (s : State) (v : U16) : s.setPcnt .t1 v = { s with pcnt1 := v } := rfl
@[simp] theorem State.pcnt_t0 (s : State) : s.pcnt .t0 = s.pcnt0 := rfl
@[simp] theorem State.pcnt_t1 (s : State) : s.pcnt .t1 = s.pcnt1 := rfl
@[simp] theorem State.setPcnt_cfg (s : State) (t : Timer) (v : U16) : (s.setPcnt t v).cfg = s.cfg := by
  cases t <;> rfl
@[simp] theorem State.setPcnt_units (s : State) (t : Timer) (v : U16) : (s.setPcnt t v).units = s.units := by
  cases t <;> rfl
@[simp] theorem State.setPcnt_chans (s : State) (t : Timer) (v : U16) : (s.setPcnt t v).chans = s.chans := by
  cases t <;> rfl
@[simp] theorem State.setPcnt_zcFall (s : State) (t : Timer) (v : U16) : (s.setPcnt t v).zcFall = s.zcFall := by
  cases t <;> rfl
@[simp] theorem State.setPcnt_zcRise (s : State) (t : Timer) (v : U16) : (s.setPcnt t v).zcRise = s.zcRise := by
  cases t <;> rfl
@[simp] theorem State.setPcnt_zcPol (s : State) (t : Timer) (v : U16) : (s.setPcnt t v).zcPol = s.zcPol := by
  cases t <;> rfl
@[simp] theorem State.setPcnt_capcnt (s : State) (t : Timer) (v : U16) : (s.setPcnt t v).capcnt = s.capcnt := by
  cases t <;> rfl
@[simp] theorem State.setPcnt_icr (s : State) (t : Timer) (v : U16) : (s.setPcnt t v).icr = s.icr := by
  cases t <;> rfl
@[simp] theorem State.setPcnt_zcPend (s : State) (t : Timer) (v : U16) : (s.setPcnt t v).zcPend = s.zcPend := by
  cases t <;> rfl
@[simp] theorem State.setPcnt_gie (s : State) (t : Timer) (v : U16) : (s.setPcnt t v).gie = s.gie := by
  cases t <;> rfl
@[simp] theorem State.setPcnt_rxbuf (s : State) (t : Timer) (v : U16) : (s.setPcnt t v).rxbuf = s.rxbuf := by
  cases t <;> rfl
@[simp] theorem State.setPcnt_rd (s : State) (t : Timer) (v : U16) : (s.setPcnt t v).rd = s.rd := by
  cases t <;> rfl
@[simp] theorem State.setPcnt_wr (s : State) (t : Timer) (v : U16) : (s.setPcnt t v).wr = s.wr := by
  cases t <;> rfl
@[simp] theorem State.setPcnt_seq (s : State) (t : Timer) (v : U16) : (s.setPcnt t v).seq = s.seq := by
  cases t <;> rfl
@[simp] theorem State.setPcnt_rOp (s : State) (t : Timer) (v : U16) : (s.setPcnt t v).rOp = s.rOp := by
  cases t <;> rfl
@[simp] theorem State.setPcnt_rId (s : State) (t : Timer) (v : U16) : (s.setPcnt t v).rId = s.rId := by
  cases t <;> rfl
@[simp] theorem State.setPcnt_mq (s : State) (t : Timer) (v : U16) : (s.setPcnt t v).mq = s.mq := by
  cases t <;> rfl
@[simp] theorem State.setPcnt_tx (s : State) (t : Timer) (v : U16) : (s.setPcnt t v).tx = s.tx := by
  cases t <;> rfl
@[simp] theorem State.setPcnt_pulses (s : State) (t : Timer) (v : U16) : (s.setPcnt t v).pulses = s.pulses := by
  cases t <;> rfl
@[simp] theorem State.setPcnt_flushes (s : State) (t : Timer) (v : U16) : (s.setPcnt t v).flushes = s.flushes := by
  cases t <;> rfl
@[simp] theorem State.setPcnt_fRxOverrun (s : State) (t : Timer) (v : U16) : (s.setPcnt t v).fRxOverrun = s.fRxOverrun := by
  cases t <;> rfl
@[simp] theorem State.setPcnt_fTornLink (s : State) (t : Timer) (v : U16) : (s.setPcnt t v).fTornLink = s.fTornLink := by
  cases t <;> rfl
@[simp] theorem State.setPcnt_fZcLost (s : State) (t : Timer) (v : U16) : (s.setPcnt t v).fZcLost = s.fZcLost := by
  cases t <;> rfl
@[simp] theorem State.setPcnt_sched (s : State) (t : Timer) (v : U16) : (s.setPcnt t v).sched = s.sched := by
  cases t <;> rfl

end Sys2Proof.Machine
end

