-- ==== Sys2Proof/Laws/Ops.lean ====
section
/-!
SUPPORT. What each shared operation can do, said once: look-ups after updates, the two partial updates,
sequencing, and the micro-steps. Later proofs cite these and do not unfold the operations.
-/

namespace Sys2Proof.Machine

/-! ### Sequencing -/

@[simp] theorem andThen_next (s : State) (k : State → Result) : andThen (.next s) k = k s := rfl
@[simp] theorem andThen_fault (e : Fault) (k : State → Result) : andThen (.fault e) k = .fault e := rfl
@[simp] theorem andThen_refused (e : Refusal) (k : State → Result) : andThen (.refused e) k = .refused e := rfl

/-- A sequence ends in a next state exactly where both halves do. -/
theorem andThen_eq_next {r : Result} {k : State → Result} {t : State} :
    andThen r k = .next t ↔ ∃ s, r = .next s ∧ k s = .next t := by
  cases r <;> simp

/-! ### Look-ups -/

/-- A unit is looked up through the list of units only. -/
theorem State.unit?_congr {s t : State} (h : t.units = s.units) (u : Nat) : t.unit? u = s.unit? u := by
  simp [State.unit?, h]

/-- A channel is looked up through the list of channels only. -/
theorem State.chan?_congr {s t : State} (h : t.chans = s.chans) (c : Nat) : t.chan? c = s.chan? c := by
  simp [State.chan?, h]

theorem State.uchOf_congr {s t : State} (h : t.units = s.units) (u : Nat) : t.uchOf u = s.uchOf u := by
  simp [State.uchOf, State.unit?_congr h]

theorem State.ownerOf_congr {s t : State} (h : t.chans = s.chans) (c : Nat) : t.ownerOf c = s.ownerOf c := by
  simp [State.ownerOf, State.chan?_congr h]

/-- A unit exists exactly where its id is in 1..M. -/
theorem State.unit?_isSome_iff {s : State} {u : Nat} : (s.unit? u).isSome ↔ 1 ≤ u ∧ u ≤ s.units.length := by
  unfold State.unit?
  split
  · simp; omega
  · simp; omega

/-- A valid id names a unit. -/
theorem State.unit?_of_valid {s : State} {u : Nat} (h1 : 1 ≤ u) (h2 : u ≤ s.units.length) :
    ∃ x, s.unit? u = some x := by
  have h := State.unit?_isSome_iff.mpr ⟨h1, h2⟩
  exact Option.isSome_iff_exists.mp h

/-- A channel exists exactly where its index is below N. -/
theorem State.chan?_isSome_iff {s : State} {c : Nat} : (s.chan? c).isSome ↔ c < s.chans.length := by
  simp [State.chan?]

/-- A channel in range can be looked up. -/
theorem State.chan?_of_lt {s : State} {c : Nat} (h : c < s.chans.length) : ∃ ch, s.chan? c = some ch :=
  Option.isSome_iff_exists.mp (State.chan?_isSome_iff.mpr h)

/-- The unit just written reads as written. -/
theorem State.unit?_setUnit_same {s : State} {u : Nat} {x y : PowerUnit} (h : s.unit? u = some y) :
    (s.setUnit u x).unit? u = some x := by
  have hb := State.unit?_isSome_iff.mp (by rw [h]; rfl : (s.unit? u).isSome)
  simp only [State.unit?, show u ≠ 0 by omega, if_false, State.setUnit_units]
  exact List.getElem?_set_self (by omega)

/-- The other units are left alone. -/
theorem State.unit?_setUnit_ne {s : State} {u v : Nat} {x y : PowerUnit} (h : s.unit? u = some y) (hv : v ≠ u) :
    (s.setUnit u x).unit? v = s.unit? v := by
  have hb := State.unit?_isSome_iff.mp (by rw [h]; rfl : (s.unit? u).isSome)
  unfold State.unit?
  split
  · rfl
  · exact List.getElem?_set_ne (by omega)

/-- The channel just written reads as written. -/
theorem State.chan?_setChan_same {s : State} {c : Nat} {x y : Channel} (h : s.chan? c = some y) :
    (s.setChan c x).chan? c = some x := by
  have hb := State.chan?_isSome_iff.mp (by rw [h]; rfl : (s.chan? c).isSome)
  exact List.getElem?_set_self hb

/-- The other channels are left alone. -/
theorem State.chan?_setChan_ne {s : State} {c d : Nat} {x : Channel} (hd : d ≠ c) :
    (s.setChan c x).chan? d = s.chan? d :=
  List.getElem?_set_ne (Ne.symm hd)

@[simp] theorem State.chan?_setUnit (s : State) (u c : Nat) (x : PowerUnit) :
    (s.setUnit u x).chan? c = s.chan? c := rfl
@[simp] theorem State.unit?_setChan (s : State) (c u : Nat) (x : Channel) :
    (s.setChan c x).unit? u = s.unit? u := rfl

/-! ### The two partial updates -/

/-- What `updUnit` can do: the unit exists and is rewritten. -/
theorem updUnit_eq_next {u : Nat} {f : PowerUnit → PowerUnit} {s t : State} :
    updUnit u f s = .next t ↔ ∃ x, s.unit? u = some x ∧ t = s.setUnit u (f x) := by
  unfold updUnit
  cases s.unit? u <;> simp [eq_comm]

/-- `updUnit` on a unit that exists. -/
theorem updUnit_of_some {u : Nat} {f : PowerUnit → PowerUnit} {s : State} {x : PowerUnit}
    (h : s.unit? u = some x) : updUnit u f s = .next (s.setUnit u (f x)) := by
  simp [updUnit, h]

/-- What `updChan` can do: the channel exists and is rewritten. -/
theorem updChan_eq_next {c : Nat} {f : Channel → Channel} {s t : State} :
    updChan c f s = .next t ↔ ∃ ch, s.chan? c = some ch ∧ t = s.setChan c (f ch) := by
  unfold updChan
  cases s.chan? c <;> simp [eq_comm]

/-- `updChan` on a channel that exists. -/
theorem updChan_of_some {c : Nat} {f : Channel → Channel} {s : State} {ch : Channel}
    (h : s.chan? c = some ch) : updChan c f s = .next (s.setChan c (f ch)) := by
  simp [updChan, h]

/-! ### The value computations -/

/-- `compareValue` answers exactly on 1..99 within the table, with the exact product shifted. -/
theorem compareValue_eq_some {c : Cfg} {l : Nat} {v : U16} :
    compareValue c l = some v ↔ 1 ≤ l ∧ l ≤ 99 ∧ ∃ e, c.levelTable[l]? = some e ∧
      v = BitVec.ofNat 16 ((e.toNat * c.half.toNat) >>> 16) := by
  unfold compareValue levelEntry
  split
  · rename_i h
    simp only [Option.map_eq_some_iff, h, true_and]
    simp [eq_comm]
  · rename_i h
    simp only [reduceCtorEq, false_iff]
    rintro ⟨h1, h2, -⟩
    exact h ⟨h1, h2⟩

/-- A well-formed configuration has a compare value for every dimming level. -/
theorem compareValue_isSome {c : Cfg} (h : c.TableOk) {l : Nat} (h1 : 1 ≤ l) (h2 : l ≤ 99) :
    ∃ v, compareValue c l = some v := by
  have hl : l < c.levelTable.length := by have := h.2.1; omega
  exact ⟨_, compareValue_eq_some.mpr ⟨h1, h2, _, List.getElem?_eq_getElem hl, rfl⟩⟩

/-! ### The micro-steps, one inversion each -/

/-- What A1 can do (41_unit_and_pool.md R104). -/
theorem microA1_eq_next {c u : Nat} {l : Byte} {s t : State} :
    microA1 c u l s = .next t ↔ ∃ ch x, s.chan? c = some ch ∧ s.unit? u = some x ∧
      t = (s.setChan c { ch with owner := some u, lvl := l }).setUnit u { x with uch := some c } := by
  simp only [microA1, andThen_eq_next, updChan_eq_next, updUnit_eq_next]
  constructor
  · rintro ⟨_, ⟨ch, hc, rfl⟩, x, hx, rfl⟩
    exact ⟨ch, x, hc, hx, rfl⟩
  · rintro ⟨ch, x, hc, hx, rfl⟩
    exact ⟨_, ⟨ch, hc, rfl⟩, x, hx, rfl⟩

/-- What A2 can do (R104). -/
theorem microA2_eq_next {c : Nat} {l : Byte} {s t : State} :
    microA2 c l s = .next t ↔ ∃ v ch, compareValue s.cfg l.toNat = some v ∧ s.chan? c = some ch ∧
      t = s.setChan c { ch with cmp := v } := by
  unfold microA2
  cases compareValue s.cfg l.toNat <;> simp [updChan_eq_next]

/-- What L3 can do (41_unit_and_pool.md R105). -/
theorem microL3_eq_next {c u : Nat} {s t : State} :
    microL3 c u s = .next t ↔ ∃ ch x, s.chan? c = some ch ∧ s.unit? u = some x ∧
      t = (s.setChan c { ch with owner := none }).setUnit u { x with uch := none } := by
  simp only [microL3, andThen_eq_next, updChan_eq_next, updUnit_eq_next]
  constructor
  · rintro ⟨_, ⟨ch, hc, rfl⟩, x, hx, rfl⟩
    exact ⟨ch, x, hc, hx, rfl⟩
  · rintro ⟨ch, x, hc, hx, rfl⟩
    exact ⟨_, ⟨ch, hc, rfl⟩, x, hx, rfl⟩

/-- What P can do (41_unit_and_pool.md R106). -/
theorem microP_eq_next {c u : Nat} {l : Byte} {s t : State} :
    microP c u l s = .next t ↔ ∃ v ch, compareValue s.cfg l.toNat = some v ∧ s.chan? c = some ch ∧
      t = reprogram c u l ch v s := by
  unfold microP
  cases compareValue s.cfg l.toNat with
  | none => simp
  | some v => cases s.chan? c <;> simp [eq_comm]

/-- What I5 can do (40_commands.md R89): it only sends. -/
theorem microI5_eq_next {s t : State} (h : microI5 s = .next t) : t = s.send (infoTail s) := by
  unfold microI5 at h
  split at h
  · simpa [eq_comm] using h
  · simp at h

/-- The sequencer behind a queue's head (R86). -/
@[simp] theorem seqAfter_nil : seqAfter [] = .sLead := rfl
@[simp] theorem seqAfter_cons (m : MicroStep) (q : List MicroStep) : seqAfter (m :: q) = .sRun := rfl

/-- `Micro` with a queue. -/
theorem microStep_cons {s : State} {m : MicroStep} {q : List MicroStep} (h : s.mq = m :: q) :
    microStep s = perform m { s with mq := q, seq := seqAfter q } := by
  unfold microStep
  rw [h]

end Sys2Proof.Machine
end

