-- ==== Sys2Proof/Laws/Agents.lean ====
section
/-!
SUPPORT. What one step of each agent other than the foreground can do, said once: when it is enabled, and its
result. Later proofs cite these and do not unfold the agents.
-/

namespace Sys2Proof.Machine

/-- What ZcIrq can do (42_zero_cross.md R123). -/
theorem zcIrq_eq_next {s t : State} :
    zcIrq s = .next t ↔ s.gie = true ∧ s.zcPend = true ∧
      ((s.zcPol = .falling ∧ t = zcFalling s) ∨ (s.zcPol = .rising ∧ t = zcRising s)) := by
  unfold zcIrq zcIrqEnabled
  cases s.gie <;> cases s.zcPend <;> cases s.zcPol <;> simp [eq_comm]

/-- ZcIrq where it is not enabled (log 2). -/
theorem zcIrq_disabled {s : State} (h : s.gie = false ∨ s.zcPend = false) : zcIrq s = .refused .zcIrqNotEnabled := by
  unfold zcIrq zcIrqEnabled
  rcases h with h | h <;> simp [h]

/-- What FireIrq can do (43_phase_timer.md R134). -/
theorem fireIrq_eq_next {c : Nat} {s t : State} :
    fireIrq c s = .next t ↔ ∃ ch, s.chan? c = some ch ∧ s.gie = true ∧ ch.ie = true ∧ ch.mf = true ∧
      t = fireChannel c ch s := by
  unfold fireIrq
  split
  · rename_i ch h
    split
    · rename_i he
      have he' : s.gie = true ∧ ch.ie = true ∧ ch.mf = true := by
        simpa [fireIrqEnabled, and_assoc] using he
      constructor
      · intro h'
        cases h'
        exact ⟨ch, h, he'.1, he'.2.1, he'.2.2, rfl⟩
      · rintro ⟨ch', h', -, -, -, rfl⟩
        rw [h] at h'
        cases h'
        rfl
    · rename_i he
      constructor
      · intro h'
        cases h'
      · rintro ⟨ch', h', h1, h2, h3, -⟩
        rw [h] at h'
        cases h'
        exact absurd (by simp [fireIrqEnabled, h1, h2, h3]) he
  · rename_i h
    constructor
    · intro h'
      cases h'
    · rintro ⟨ch', h', -⟩
      rw [h] at h'
      cases h'

/-- FireIrq where it is enabled. -/
theorem fireIrq_enabled {c : Nat} {s : State} {ch : Channel} (h : s.chan? c = some ch) (hg : s.gie = true)
    (hi : ch.ie = true) (hm : ch.mf = true) : fireIrq c s = .next (fireChannel c ch s) :=
  fireIrq_eq_next.mpr ⟨ch, h, hg, hi, hm, rfl⟩

/-- FireIrq where it is not enabled (log 2). -/
theorem fireIrq_disabled {c : Nat} {s : State} {ch : Channel} (h : s.chan? c = some ch)
    (hd : s.gie = false ∨ ch.ie = false ∨ ch.mf = false) : fireIrq c s = .refused .fireIrqNotEnabled := by
  unfold fireIrq fireIrqEnabled
  rw [h]
  rcases hd with hd | hd | hd <;> simp [hd]

/-- The firing handler of a channel with an owner. -/
theorem fireChannel_owned {c u : Nat} {s : State} {ch : Channel} (h : ch.owner = some u) :
    fireChannel c ch s = (s.setChan c { ch with mf := false }).pulse u := by
  simp [fireChannel, h]

/-- The firing handler of a channel without an owner. -/
theorem fireChannel_unowned {c : Nat} {s : State} {ch : Channel} (h : ch.owner = none) :
    fireChannel c ch s = { s.setChan c { ch with mf := false } with fTornLink := true } := by
  simp [fireChannel, h]

/-- What RxByte can do (20_memory.md R42). -/
theorem rxByte_eq_next {b : Byte} {s t : State} :
    rxByte b s = .next t ↔ s.gie = true ∧ s.wr < s.cfg.rxcap ∧ t = storeByte b s := by
  unfold rxByte rxEnabled
  cases s.gie
  · simp
  · by_cases h : s.wr < s.cfg.rxcap <;> simp [h, eq_comm]

/-- The phase counter written reads as written. -/
@[simp] theorem State.pcnt_setPcnt_same (s : State) (t : Timer) (v : U16) : (s.setPcnt t v).pcnt t = v := by
  cases t <;> rfl

/-- The other phase counter is left alone. -/
theorem State.pcnt_setPcnt_ne {s : State} {t t' : Timer} {v : U16} (h : t' ≠ t) :
    (s.setPcnt t v).pcnt t' = s.pcnt t' := by
  cases t <;> cases t' <;> first | rfl | exact absurd rfl h

/-- A channel after a tick of timer `t` to `count` (43_phase_timer.md R130). -/
theorem tickChannels_getElem? (cfg : Cfg) (t : Timer) (count : U16) (chans : List Channel) (c : Nat) :
    (tickChannels cfg t count chans)[c]? =
      (chans[c]?).map fun ch => if timerOf cfg c = t then withMatch cfg count ch else ch := by
  simp [tickChannels, List.getElem?_mapIdx]

/-- A channel after PhTick (R130). -/
theorem chan?_phTick {t : Timer} {s s' : State} (h : phTick t s = .next s') (c : Nat) :
    s'.chan? c = (s.chan? c).map fun ch =>
      if timerOf s.cfg c = t then withMatch s.cfg (phaseNext s.cfg (s.pcnt t)) ch else ch := by
  have ht : s' = { s.setPcnt t (phaseNext s.cfg (s.pcnt t)) with
      chans := tickChannels s.cfg t (phaseNext s.cfg (s.pcnt t)) s.chans } := by
    unfold phTick at h
    simpa [eq_comm] using h
  rw [ht]
  exact tickChannels_getElem? _ _ _ _ _

end Sys2Proof.Machine
end

