-- ==== Sys2Proof/Laws/Config.lean ====
section
/-!
SUPPORT. The configurations the model names are configurations of this hardware: the spec's test
configuration, and the reset configuration whatever its free calibration is.
-/

namespace Sys2Proof

/-- The entries of the test table (95_test_vectors.md part 1). -/
theorem Config.testTable_getElem? {i : Nat} (h : i ≤ 100) :
    Config.testTable[i]? = some (BitVec.ofNat 16 ((100 - i) * 655)) := by
  simp [Config.testTable, List.getElem?_range (show i < 101 by omega)]

/-- The same through `getD`. -/
theorem Config.testTable_getD {i : Nat} (h : i ≤ 100) :
    Config.testTable.getD i 0 = BitVec.ofNat 16 ((100 - i) * 655) := by
  rw [List.getD_eq_getElem?_getD, Config.testTable_getElem? h]
  rfl

/-- The compare values of the test configuration. -/
theorem Config.test_compareValue {p : Nat} (h1 : 1 ≤ p) (h2 : p ≤ 99) :
    ((Machine.compareValue Config.test p).getD 0).toNat = (100 - p) * 13100000 / 65536 := by
  have he : Machine.levelEntry Config.test p = some (BitVec.ofNat 16 ((100 - p) * 655)) :=
    Config.testTable_getElem? (by omega)
  have hh : Config.test.half.toNat = 20000 := by decide
  simp only [Machine.compareValue, h1, h2, and_self, if_true, he, Option.map_some, Option.getD_some,
    BitVec.toNat_ofNat, Nat.shiftRight_eq_div_pow, hh]
  rw [Nat.mod_eq_of_lt (show (100 - p) * 655 < 2 ^ 16 by omega)]
  obtain ⟨k, hk⟩ : ∃ k, 100 - p = k := ⟨_, rfl⟩
  rw [hk, show k * 655 * 20000 = k * 13100000 by ring]
  omega

/-- `CFG_T` is a configuration of this hardware. -/
theorem Config.test_WF : Config.test.WF := by
  refine ⟨by decide, ⟨by decide, by decide, fun i hi => ?_⟩, fun p2 h2 p1 h1 hp => ?_, by decide, by decide⟩
  · show (Config.testTable.getD (i + 1) 0).toNat ≤ (Config.testTable.getD i 0).toNat
    rw [Config.testTable_getD (by omega), Config.testTable_getD (by omega)]
    simp only [BitVec.toNat_ofNat]
    obtain ⟨k, hk⟩ : ∃ k, 100 - (i + 1) = k := ⟨_, rfl⟩
    rw [hk, show 100 - i = k + 1 by omega, Nat.mod_eq_of_lt (show k * 655 < 2 ^ 16 by omega),
      Nat.mod_eq_of_lt (show (k + 1) * 655 < 2 ^ 16 by omega)]
    omega
  · rw [Config.test_compareValue (by omega) (by omega), Config.test_compareValue hp (by omega)]
    omega

namespace Machine

/-- The reset configuration is a configuration of this hardware, whatever the free calibration is. -/
theorem resetCfg_WF : resetCfg.WF := by
  have h := Config.test_WF
  by_cases hr : rawCfg.TableOk ∧ rawCfg.CompareOk
  · have hc : calibration = (Config.rawHalf, Config.rawTable) := if_pos hr
    have : resetCfg = rawCfg := by rw [resetCfg, hc, rawCfg]
    rw [this]
    exact ⟨h.1, hr.1, hr.2, h.2.2.2.1, h.2.2.2.2⟩
  · have hc : calibration = (Config.test.half, Config.test.levelTable) := if_neg hr
    have : resetCfg = Config.test := by rw [resetCfg, hc]
    rw [this]
    exact h

end Machine

end Sys2Proof
end

