-- ==== Sys2Proof/Laws/Decode.lean ====
section
/-!
SUPPORT. Small lemmas of the decoder: what it reads after ESC and each opcode, and the bytes of the
encoder.
-/

namespace Sys2Proof

@[simp] theorem decode_nil (c : Cfg) : decode c [] = .incomplete := rfl

/-- A lead byte other than ESC is a frame of its own (30_encoding.md R65). -/
theorem decode_badstart (c : Cfg) {b : Byte} (h : b ≠ Config.esc) (rest : List Byte) :
    decode c (b :: rest) = .frame (.badstart b) rest := if_neg h

/-- After ESC the opcode decides. -/
@[simp] theorem decode_esc (c : Cfg) (rest : List Byte) :
    decode c (Config.esc :: rest) = decodeOpcode c rest := by simp [decode]

@[simp] theorem decodeOpcode_nil (c : Cfg) : decodeOpcode c [] = .incomplete := rfl

theorem decodeOpcode_nothing (c : Cfg) (rest : List Byte) :
    decodeOpcode c (c.opNothing :: rest) = .frame .nothing rest := by
  simp [decodeOpcode]

theorem decodeOpcode_info {c : Cfg} (h : c.OpcodesOk) (rest : List Byte) :
    decodeOpcode c (Config.opInfo :: rest) = .frame .info rest := by
  simp [decodeOpcode, Ne.symm h.2.1]

theorem decodeOpcode_on {c : Cfg} (h : c.OpcodesOk) (rest : List Byte) :
    decodeOpcode c (Config.opOn :: rest) = decodeF1 .on rest := by
  simp [decodeOpcode, Ne.symm h.2.2.1, show Config.opOn ≠ Config.opInfo by decide]

theorem decodeOpcode_off {c : Cfg} (h : c.OpcodesOk) (rest : List Byte) :
    decodeOpcode c (c.opOff :: rest) = decodeF1 .off rest := by
  simp [decodeOpcode, Ne.symm h.1, h.2.2.2.2.1, h.2.2.2.2.2.1]

theorem decodeOpcode_level {c : Cfg} (h : c.OpcodesOk) (rest : List Byte) :
    decodeOpcode c (Config.opLevel :: rest) = decodeF2 .level rest := by
  simp [decodeOpcode, Ne.symm h.2.2.2.1, Ne.symm h.2.2.2.2.2.2, show Config.opLevel ≠ Config.opInfo by decide,
    show Config.opLevel ≠ Config.opOn by decide]

theorem decodeOpcode_badop {c : Cfg} {op : Byte} (h : ¬ c.isOpcode op) (rest : List Byte) :
    decodeOpcode c (op :: rest) = .frame (.badop op) rest := by
  simp only [Cfg.isOpcode, not_or] at h
  simp [decodeOpcode, h]

/-- No frame is longer than four bytes (R61). -/
theorem frameLength_le (i : Instr) : frameLength i ≤ 4 := by cases i <;> simp [frameLength]

/-- No frame is empty (R61, R65). -/
theorem frameLength_pos (i : Instr) : 0 < frameLength i := by cases i <;> simp [frameLength]

end Sys2Proof
end

