-- ==== Sys2Proof/Laws/Invariant.lean ====
section
/-!
SUPPORT. The invariant of one concrete state from finitely many checks: a state whose units and channels
pass them, with nothing in the ring, has the invariant.
-/

namespace Sys2Proof.Machine

/-- The finite checks on the channels and units of a state. -/
structure Checked (s : State) : Prop where
  /-- Every owner names a unit bound to that channel. -/
  owners : ∀ c < s.chans.length, ∀ u ∈ (s.ownerOf c).toList, s.uchOf u = some c
  /-- Every binding names a channel owned by that unit. -/
  bindings : ∀ u < s.units.length + 1, ∀ c ∈ (s.uchOf u).toList, s.ownerOf c = some u
  /-- The conditions on one channel. -/
  chans : ∀ ch ∈ s.chans, (ch.ie = true → ch.owner ≠ none) ∧ (ch.owner = none → ch.lvl = 0) ∧ ch.lvl.toNat ≤ 99 ∧
    (ch.mf = true → ch.ie = true)
  /-- The conditions on one unit. -/
  units : ∀ u < s.units.length + 1, opUnit s.mq ≠ some u → ∀ x ∈ (s.unit? u).toList,
    (x.ustate = .dimming ↔ x.uch ≠ none) ∧ (x.pin = true ↔ x.ustate = .on)

/-- A checked state with an empty ring that nothing has been written to has the invariant. -/
theorem inv_of_checked {s : State} (h : Checked s) (hc : s.cfg.WF) (hu : s.units.length = s.cfg.nUnit)
    (hn : s.chans.length = s.cfg.nChan) (hq : QueueOk s s.mq) (hr : s.mq = [] ↔ s.seq ≠ .sRun)
    (hi : s.seq ≠ .sId) (hl : s.seq ≠ .sLvl) (hb : s.gie = true ↔ s.seq ≠ .sBoot) (hrd : s.rd = 0) (hwr : s.wr = 0)
    (hm : s.rxbuf = []) (hx : if s.gie then handshake <+: s.tx else s.tx = []) (ht : s.fTornLink = false) : Inv s where
  cfgWF := hc
  unitCount := hu
  chanCount := hn
  link c u := by
    constructor
    · intro ho
      have hlt : c < s.chans.length := by
        by_contra hge
        have hnone : s.chan? c = none := List.getElem?_eq_none (by omega)
        simp [State.ownerOf, hnone] at ho
      exact h.owners c hlt u (by simp [ho])
    · intro hx'
      have hlt : u < s.units.length + 1 := by
        by_contra hge
        have hnone : s.unit? u = none := by
          unfold State.unit?
          rw [if_neg (by omega)]
          exact List.getElem?_eq_none (by omega)
        simp [State.uchOf, hnone] at hx'
      exact h.bindings u hlt c (by simp [hx'])
  enabledOwned c ch hch := (h.chans ch (List.mem_of_getElem? hch)).1
  unownedLevel c ch hch := (h.chans ch (List.mem_of_getElem? hch)).2.1
  levelRange c ch hch := (h.chans ch (List.mem_of_getElem? hch)).2.2.1
  flagEnabled _ c ch hch := (h.chans ch (List.mem_of_getElem? hch)).2.2.2
  unitState u x hux ho := by
    have hlt := (State.unit?_isSome_iff.mp (by rw [hux]; rfl : (s.unit? u).isSome)).2
    exact h.units u (by omega) ho x (by simp [hux])
  queue := hq
  running := hr
  latchId he := absurd he hi
  latchLvl he := absurd he hl
  booted := hb
  rdRange := by have := hc.2.2.2.2.1; omega
  wrRange := by have := hc.2.2.2.2.1; omega
  ramWf := by rw [hm]; exact Memory.nil_wf
  ramRange a ha := by rw [hm] at ha; simp [Memory.read] at ha
  unreadWritten k hk := by
    have h0 : s.unread = 0 := by simp [State.unread, hrd, hwr]
    omega
  handshakeFirst := hx
  untorn := ht

end Sys2Proof.Machine
end

