-- ==== Sys2Proof/Laws/PerInstr.lean ====
section
/-!
SUPPORT. The per-instruction family: the encoding of every instruction has the length of its format, and
starts with ESC exactly where the instruction is no framing error (spec/30_encoding.md R60, R61, R65).
-/

namespace Sys2Proof.Laws.FrameShape

/-- The bytes of `i` are as many as its format says, and the first is ESC unless `i` is BADSTART. -/
def Statement (i : Instr) : Prop :=
  ∀ c : Cfg, i.WF c → (encode c i).length = frameLength i ∧
    ((encode c i).head? = some Config.esc ↔ ∀ b, i ≠ .badstart b)

theorem nothing : Statement .nothing := fun _ _ => ⟨rfl, by simp [encode]⟩
theorem info : Statement .info := fun _ _ => ⟨rfl, by simp [encode]⟩
theorem on (id : Byte) : Statement (.on id) := fun _ _ => ⟨rfl, by simp [encode]⟩
theorem off (id : Byte) : Statement (.off id) := fun _ _ => ⟨rfl, by simp [encode]⟩
theorem level (id lvl : Byte) : Statement (.level id lvl) := fun _ _ => ⟨rfl, by simp [encode]⟩
theorem badop (op : Byte) : Statement (.badop op) := fun _ _ => ⟨rfl, by simp [encode]⟩
theorem badstart (b : Byte) : Statement (.badstart b) := fun _ h => ⟨rfl, by
  have hb : b ≠ Config.esc := h
  simp [encode, hb]⟩

end Sys2Proof.Laws.FrameShape
end

