-- ==== Sys2Proof/Laws/Pool.lean ====
section
/-!
SUPPORT. The queue a request on a unit makes, one lemma per case of the level and of the unit
(spec/40_commands.md R90, 41_unit_and_pool.md R102), and the ring cursors.
-/

namespace Sys2Proof.Machine

/-- An id outside 1..M (40_commands.md R90). -/
theorem execSteps_invalid {s : State} {op id l : Byte} (h : id.toNat = 0 ∨ s.cfg.nUnit < id.toNat) :
    execSteps s op id l = raiseSteps .invalidId op id := by
  unfold execSteps
  rw [if_pos]
  rcases h with h | h
  · exact .inl (BitVec.eq_of_toNat_eq h)
  · exact .inr h

/-- An id in 1..M (R90). -/
theorem execSteps_valid {s : State} {op id l : Byte} (h1 : 1 ≤ id.toNat) (h2 : id.toNat ≤ s.cfg.nUnit) :
    execSteps s op id l = respondSteps (setLevelSteps s id.toNat l) op id := by
  unfold execSteps
  rw [if_neg]
  rintro (h | h)
  · subst h
    simp at h1
  · omega

/-- A request for 100 and above (41_unit_and_pool.md R102). -/
theorem setLevelSteps_high {s : State} {u : Nat} {l : Byte} (h : 100 ≤ l.toNat) :
    setLevelSteps s u l = (s.releaseIfBound u ++ [.pinHi u], .success) := if_pos h

/-- A request for 0 (R102). -/
theorem setLevelSteps_low {s : State} {u : Nat} {l : Byte} (h : l.toNat = 0) :
    setLevelSteps s u l = (s.releaseIfBound u ++ [.pinLo u], .success) := by
  obtain rfl : l = 0 := BitVec.eq_of_toNat_eq h
  rfl

/-- A request for 1..99 on a unit with a channel (R102). -/
theorem setLevelSteps_bound {s : State} {u c : Nat} {l : Byte} (h1 : 1 ≤ l.toNat) (h2 : l.toNat ≤ 99)
    (hc : s.uchOf u = some c) : setLevelSteps s u l = ([.p c u l], .success) := by
  unfold setLevelSteps
  rw [if_neg (by omega), if_neg (by rintro rfl; simp at h1), hc]

/-- A request for 1..99 on a unit without a channel, with one free (R102). -/
theorem setLevelSteps_free {s : State} {u c : Nat} {l : Byte} (h1 : 1 ≤ l.toNat) (h2 : l.toNat ≤ 99)
    (hu : s.uchOf u = none) (hc : s.firstFree = some c) :
    setLevelSteps s u l = (acquireSteps c u l, .success) := by
  unfold setLevelSteps
  rw [if_neg (by omega), if_neg (by rintro rfl; simp at h1), hu, hc]

/-- A request for 1..99 on a unit without a channel, with none free (R102). -/
theorem setLevelSteps_exhausted {s : State} {u : Nat} {l : Byte} (h1 : 1 ≤ l.toNat) (h2 : l.toNat ≤ 99)
    (hu : s.uchOf u = none) (hc : s.firstFree = none) : setLevelSteps s u l = ([], .noDimmerAvailable) := by
  unfold setLevelSteps
  rw [if_neg (by omega), if_neg (by rintro rfl; simp at h1), hu, hc]

/-- The number of unread bytes, for cursors in range (20_memory.md R41). -/
theorem State.unread_of_lt {s : State} (h1 : s.rd < s.cfg.rxcap) (h2 : s.wr < s.cfg.rxcap) :
    s.unread = if s.rd ≤ s.wr then s.wr - s.rd else s.wr + s.cfg.rxcap - s.rd := by
  unfold State.unread
  split
  · rw [show s.wr + s.cfg.rxcap - s.rd = (s.wr - s.rd) + s.cfg.rxcap by omega, Nat.add_mod_right]
    exact Nat.mod_eq_of_lt (by omega)
  · exact Nat.mod_eq_of_lt (by omega)

/-- The ring is empty exactly where the cursors are equal (R41). -/
theorem State.unread_eq_zero {s : State} (h1 : s.rd < s.cfg.rxcap) (h2 : s.wr < s.cfg.rxcap) :
    s.unread = 0 ↔ s.rd = s.wr := by
  rw [State.unread_of_lt h1 h2]
  split <;> omega

end Sys2Proof.Machine
end

