-- ==== Sys2Proof/Laws/Run.lean ====
section
/-!
SUPPORT. Runs of the core step by step, and which agent's step a step is.
-/

namespace Sys2Proof.Machine

/-- No step taken. -/
theorem runsTo_zero {s t : State} : RunsTo 0 s t ↔ s = t := by
  show (Host.Outcome.next s : Result) = .next t ↔ _
  simp

/-- One step, then the rest. -/
theorem run_of_next {M : Host.Core} {k : Nat} {s s' : M.State} (h : M.step s = .next s') :
    M.run (k + 1) s = M.run k s' := by
  simp only [Host.Core.run, h]

/-- One step, then the rest, of the block. -/
theorem runsTo_succ {k : Nat} {s s' t : State} (h : step s = .next s') : RunsTo (k + 1) s t ↔ RunsTo k s' t := by
  have hr := run_of_next (M := Sys2Proof.core) (k := k) h
  exact iff_of_eq (congrArg (· = _) hr)

/-- A run of at least one step starts with a step. -/
theorem run_eq_next {M : Host.Core} {k : Nat} {s t : M.State} (h : M.run (k + 1) s = .next t) :
    ∃ s', M.step s = .next s' ∧ M.run k s' = .next t := by
  simp only [Host.Core.run] at h
  cases hs : M.step s with
  | next s' => rw [hs] at h; exact ⟨s', rfl, h⟩
  | fault e => rw [hs] at h; simp at h
  | refused e => rw [hs] at h; simp at h

/-- A run of the block of at least one step starts with a step. -/
theorem runsTo_succ_inv {k : Nat} {s t : State} (h : RunsTo (k + 1) s t) :
    ∃ s', step s = .next s' ∧ RunsTo k s' t := run_eq_next (M := Sys2Proof.core) h

/-- With an empty schedule the foreground moves (log 1). -/
theorem step_fg {s : State} (h : s.sched = []) : step s = fgStep s := by
  unfold step
  rw [h]

/-- Otherwise the head of the schedule moves. -/
theorem step_move {s : State} {m : Move} {rest : List Move} (h : s.sched = m :: rest) :
    step s = move m { s with sched := rest } := by
  unfold step
  rw [h]

/-- The foreground of a waiting sequencer fetches (40_commands.md R80). -/
theorem fgStep_waits {s : State} (h : s.waits) : fgStep s = fetchStep s := by
  unfold fgStep
  rcases h with h | h | h | h <;> rw [h]

/-- The foreground in S_RUN performs a micro-step (R80). -/
theorem fgStep_run {s : State} (h : s.seq = .sRun) : fgStep s = microStep s := by
  unfold fgStep
  rw [h]

/-- The foreground in S_BOOT boots (R80). -/
theorem fgStep_boot {s : State} (h : s.seq = .sBoot) : fgStep s = bootStep s := by
  unfold fgStep
  rw [h]

/-- A `Fetch` step with an unread byte in a written cell of the ring. -/
theorem fetchStep_read {s : State} {b : Byte} (h : s.rd ≠ s.wr) (hr : s.rd < s.cfg.rxcap)
    (hb : s.rxbuf.read s.rd = some b) : fetchStep s = fetchByte b s := by
  simp [fetchStep, h, peekByte, hr, hb]

/-- A `Fetch` step of a byte that does not complete the frame. -/
theorem fetchByte_incomplete {s : State} {b : Byte} (h : decode s.cfg (s.framePrefix ++ [b]) = .incomplete) :
    fetchByte b s = latchByte b s := by
  unfold fetchByte
  rw [h]

/-- A `Fetch` step of the byte that completes the frame. -/
theorem fetchByte_frame {s : State} {b : Byte} {i : Instr} (h : decode s.cfg (s.framePrefix ++ [b]) = .frame i []) :
    fetchByte b s = exec i s := by
  unfold fetchByte
  rw [h]

/-- The foreground alone, in S_RUN: one micro-step, then the rest of the run. -/
theorem runsTo_micro {s s' t : State} {m : MicroStep} {q : List MicroStep} {k : Nat} (hs : s.sched = [])
    (hr : s.seq = .sRun) (hm : s.mq = m :: q) (h : perform m { s with mq := q, seq := seqAfter q } = .next s')
    (r : RunsTo k s' t) : RunsTo (k + 1) s t := by
  refine (runsTo_succ ?_).mpr r
  rw [step_fg hs, fgStep_run hr, microStep_cons hm, h]

end Sys2Proof.Machine
end

