-- ==== Sys2Proof/Tests/Slice0.lean ====
section
/-!
SUPPORT. The model's own tests: ill-formed terms that WellFormed refuses, words written out from the encodings
of spec/30_encoding.md, single steps with the values of spec/95_test_vectors.md, and for every obligation with
hypotheses a state and operands that meet them all (the theorems named `witness_...`).
-/

namespace Sys2Proof.Tests

open Sys2Proof.Machine

/-! ### States -/

/-- `CFG_T` after Boot (95_test_vectors.md, conventions). -/
def booted : State :=
  { State.resetWith Config.test with gie := true, seq := .sLead, tx := [6, 0, 0, 0, 0x42, 0x65, 0x6E] }

/-- The bytes received into an empty ring, no foreground step between. -/
def received (bs : List Byte) (s : State) : State :=
  { s with rxbuf := bs.zipIdx.map fun p => (p.2, p.1), wr := bs.length }

/-- Unit 1 dimming at 50 on channel 0, after Boot (95_test_vectors.md V-CMD21: the compare value is 9994). -/
def dimmed : State :=
  { booted with
    units := [⟨.dimming, some 0, false⟩, ⟨.off, none, false⟩, ⟨.off, none, false⟩]
    chans := ⟨some 1, 50, 9994, true, false⟩ :: List.replicate 5 Channel.reset }

/-- The same with its match flag raised. -/
def matched : State :=
  { dimmed with chans := ⟨some 1, 50, 9994, true, true⟩ :: List.replicate 5 Channel.reset }

/-- An edge pending, the next one expected to be falling. -/
def edged : State := { booted with zcPend := true, icr := 19950 }

/-- An edge pending, the next one expected to be rising. -/
def edgedRising : State := { edged with zcPol := .rising, zcFall := 65535, icr := 65535 }

/-- One tick before the compare value of channel 0, and the tick and the handler scheduled. -/
def aboutToMatch : State := { dimmed with pcnt0 := 9993, sched := [.phTick .t0, .fireIrq 0] }

/-- Channels 0 and 1 bound and both flags raised (V-PH12). -/
def twoMatched : State :=
  { booted with
    units := [⟨.dimming, some 0, false⟩, ⟨.dimming, some 1, false⟩, ⟨.off, none, false⟩]
    chans := ⟨some 1, 50, 9994, true, true⟩ :: ⟨some 2, 50, 9994, true, true⟩ :: List.replicate 4 Channel.reset }

/-- One channel, bound to unit 1: the pool is exhausted for units 2 and 3. -/
def exhausted : State :=
  { dimmed with
    cfg := { Config.test with nChan := 1, timers := [.t0] }
    chans := [⟨some 1, 50, 9994, true, false⟩] }

/-- A part of the state a result leads to. -/
def after {α : Type} (r : Result) (f : State → α) : Option α :=
  match r with
  | .next s => some (f s)
  | .fault _ => none
  | .refused _ => none

/-! ### WellFormed refuses -/

theorem test_wf_badop_is_no_opcode :
    ¬ (Instr.badop 0).WF Config.test ∧ ¬ (Instr.badop 1).WF Config.test ∧ ¬ (Instr.badop 2).WF Config.test ∧
    ¬ (Instr.badop 3).WF Config.test ∧ ¬ (Instr.badop 4).WF Config.test ∧ (Instr.badop 5).WF Config.test := by
  simp only [Instr.WF]
  decide
theorem test_wf_badstart_is_no_escape : ¬ (Instr.badstart 0x5C).WF Config.test ∧ (Instr.badstart 0x5D).WF Config.test := by
  simp only [Instr.WF]
  decide
theorem test_wf_no_unit : ¬ ({ Config.test with nUnit := 0 } : Cfg).WF := fun h => absurd h.1 (by decide)
theorem test_wf_too_many_units : ¬ ({ Config.test with nUnit := 256 } : Cfg).WF := fun h => absurd h.1 (by decide)
theorem test_wf_info_too_long : ¬ ({ Config.test with nUnit := 75 } : Cfg).WF := fun h => absurd h.1 (by decide)
theorem test_wf_no_half_period : ¬ ({ Config.test with half := 0 } : Cfg).WF := fun h => absurd h.2.1.1 (by decide)
theorem test_wf_short_table : ¬ ({ Config.test with levelTable := [] } : Cfg).WF :=
  fun h => absurd h.2.1.2.1 (by decide)
theorem test_wf_rising_table : ¬ ({ Config.test with levelTable := List.replicate 100 0 ++ [1] } : Cfg).WF :=
  fun h => absurd (h.2.1.2.2 99 (by decide)) (by decide)
/-- A half period of one tick makes all compare values 0 (90_conflicts.md C1). -/
theorem test_wf_flat_compare_values : ¬ ({ Config.test with half := 1 } : Cfg).WF :=
  fun h => absurd (h.2.2.1 2 (by decide) 1 (by decide) (by decide)) (by decide)
theorem test_wf_equal_opcodes : ¬ ({ Config.test with opNothing := 3 } : Cfg).WF :=
  fun h => absurd h.2.2.2.1 (by decide)
theorem test_wf_opcode_taken : ¬ ({ Config.test with opOff := 4 } : Cfg).WF := fun h => absurd h.2.2.2.1 (by decide)
theorem test_wf_small_ring : ¬ ({ Config.test with rxcap := 1 } : Cfg).WF := fun h => absurd h.2.2.2.2 (by decide)
theorem test_wf_timer_missing : ¬ ({ Config.test with timers := [] } : Cfg).WF := fun h => absurd h.2.2.2.2 (by decide)

/-! ### Decoding: words written out bit by bit (opcode_table.json; V-ENC1 to V-ENC14) -/

theorem test_decode_nothing : decode Config.test [0b01011100, 0b00000000] = .frame .nothing [] := by decide
theorem test_decode_info : decode Config.test [0b01011100, 0b00000001] = .frame .info [] := by decide
theorem test_decode_on : decode Config.test [0b01011100, 0b00000010, 0b00000011] = .frame (.on 3) [] := by decide
theorem test_decode_off : decode Config.test [0b01011100, 0b00000011, 0b00000010] = .frame (.off 2) [] := by decide
theorem test_decode_level :
    decode Config.test [0b01011100, 0b00000100, 0b00000001, 0b00110010] = .frame (.level 1 50) [] := by decide
theorem test_decode_badop : decode Config.test [0b01011100, 0b00000101] = .frame (.badop 5) [] := by decide
theorem test_decode_escape_as_opcode : decode Config.test [0x5C, 0x5C] = .frame (.badop 0x5C) [] := by decide
theorem test_decode_badstart : decode Config.test [0b01011101] = .frame (.badstart 0x5D) [] := by decide
theorem test_decode_escapes_as_operands :
    decode Config.test [0x5C, 0x04, 0x5C, 0x5C] = .frame (.level 0x5C 0x5C) [] := by decide
theorem test_decode_incomplete : decode Config.test [0x5C, 0x04, 0x01] = .incomplete := by decide
theorem test_decode_stream :
    decodeStream Config.test 6 [0x5C, 0x00, 0x5C, 0x00, 0x5C, 0x01] = ([.nothing, .nothing, .info], []) := by decide
/-- With OP_NOTHING = 5 the bytes 5C 00 are BADOP (V-CMD22). -/
theorem test_decode_other_nothing :
    decode { Config.test with opNothing := 5 } [0x5C, 0x00] = .frame (.badop 0) [] := by decide
theorem test_encode_off : encode Config.test (.off 2) = [0x5C, 0x03, 0x02] := by decide

/-! ### Single steps of the instructions (V-CMD1 to V-CMD21) -/

theorem test_nothing : after (exec .nothing booted) (fun t => (t.rd, t.seq, t.mq, t.tx.length)) =
    some (1, .sLead, [], 7) := by decide
theorem test_info_header : after (microStep { booted with seq := .sRun, mq := [.i0] }) (fun t => (t.tx.drop 7, t.seq)) =
    some ([0x28, 0x00, 0x01, 0x00], .sLead) := by decide
theorem test_on : after (exec (.on 3) booted) (fun t => (t.mq, t.rId)) =
    some ([.pinHi 3, .resp [3, 0, 2, 3]], 3) := by decide
theorem test_on_invalid : after (exec (.on 4) booted) (fun t => t.mq) =
    some [.resp [3, 3, 2, 4], .flush, .curReset] := by decide
theorem test_off_bound : after (exec (.off 1) dimmed) (fun t => t.mq) =
    some [.l1 0, .l2 0, .l3 0 1, .pinLo 1, .resp [3, 0, 3, 1]] := by decide
theorem test_off_zero : after (exec (.off 0) booted) (fun t => t.mq) =
    some [.resp [3, 3, 3, 0], .flush, .curReset] := by decide
theorem test_level_acquires : after (exec (.level 2 50) dimmed) (fun t => t.mq) =
    some [.a1 1 2 50, .a2 1 50, .a3 2, .a4 1, .a5 2, .resp [3, 0, 4, 2]] := by decide
theorem test_level_exhausted : after (exec (.level 2 70) exhausted) (fun t => t.mq) =
    some [.resp [3, 4, 4, 2], .flush, .curReset] := by decide
theorem test_badop : after (exec (.badop 0x5C) booted) (fun t => (t.mq, t.rOp)) =
    some ([.resp [3, 2, 0x5C, 0], .flush, .curReset], 0x5C) := by decide
theorem test_badstart : after (exec (.badstart 0x41) booted) (fun t => (t.mq, t.rOp)) =
    some ([.resp [3, 1, 0x41, 0], .flush, .curReset], 0) := by decide

/-! ### Single steps of the micro-steps and of the other agents -/

/-- V-CMD21 and 41_unit_and_pool.md R100: level 50 is 9994. -/
theorem test_compare_value : compareValue Config.test 50 = some 9994 := by decide
/-- V-POOL10: from 30 to 70 with the counter one past the old value, one pulse. -/
theorem test_reprogram_pulse : after (microP 0 1 70 { dimmed with
    chans := [⟨some 1, 30, 13992, true, false⟩], pcnt0 := 13993 }) (fun t => (t.chans, t.pulses)) =
    some ([⟨some 1, 70, 5996, true, false⟩], [1]) := by decide
/-- V-POOL9: at the old value, no pulse. -/
theorem test_reprogram_strict : after (microP 0 1 70 { dimmed with
    chans := [⟨some 1, 30, 13992, true, false⟩], pcnt0 := 13992 }) (fun t => t.pulses) = some [] := by decide
/-- 41_unit_and_pool.md R105: L1 clears the flag, and keeps it where a match is latched while disabled. -/
theorem test_release_flag : after (microL1 0 matched) (fun t => t.chans.head?) = some (some ⟨some 1, 50, 9994, false, false⟩) ∧
    after (microL1 0 { matched with cfg := { Config.test with latchDisabled := true } }) (fun t => t.chans.head?) =
      some (some ⟨some 1, 50, 9994, false, true⟩) := by decide
/-- V-RING7. -/
theorem test_cur_reset : after (microCurReset { booted with rd := 2, wr := 5 }) (fun t => (t.rd, t.wr)) = some (0, 0) := by
  decide
/-- 42_zero_cross.md R123, worked example. -/
theorem test_zc_rising : after (zcIrq { booted with
    cfg := { Config.test with half := 16667 }, zcPol := .rising, zcFall := 16600, icr := 16700, zcPend := true })
    (fun t => (t.zcRise, t.pcnt0, t.pcnt1, t.capcnt, t.zcPend)) = some (16700, 16658, 16658, 0, false) := by decide
/-- V-ZC1. -/
theorem test_capture_wraps : after (capTick { booted with capcnt := 65535 }) (fun t => t.capcnt) = some 0 := by decide
/-- V-ZC6: the second edge while one is pending; V-ZC7: unmarked before Boot. -/
theorem test_edge_lost : after (zcEdge { booted with capcnt := 150, zcPend := true }) (fun t => (t.icr, t.fZcLost)) =
    some (150, true) ∧ after (zcEdge { booted with zcPend := true, gie := false }) (fun t => t.fZcLost) = some false := by
  decide
/-- V-PH2 on channel 0 of timer 0; V-PH8: the other timer does not match it. -/
theorem test_phase_match : after (phTick .t0 { dimmed with pcnt0 := 9993 }) (fun t => t.chans.head?) =
    some (some ⟨some 1, 50, 9994, true, true⟩) ∧
    after (phTick .t1 { dimmed with pcnt1 := 9993 }) (fun t => t.chans.head?) =
      some (some ⟨some 1, 50, 9994, true, false⟩) := by decide
/-- V-PH7: a counter above PHASE_TOP runs on to 65535. -/
theorem test_phase_above_top : phaseNext { Config.test with phaseTop := 19999 } 20005 = 20006 ∧
    phaseNext { Config.test with phaseTop := 19999 } 19999 = 0 ∧ phaseNext Config.test 65535 = 0 := by decide
/-- V-PH3. -/
theorem test_fire : after (fireIrq 0 matched) (fun t => (t.pulses, t.chans.head?)) =
    some ([1], some ⟨some 1, 50, 9994, true, false⟩) := by decide
/-- V-RING5, in a ring of four cells: the fourth byte meets the read cursor. -/
theorem test_overrun : after (rxByte 0x32 { booted with cfg := { Config.test with rxcap := 4 }, wr := 3 })
    (fun t => (t.rxbuf, t.wr, t.fRxOverrun)) = some ([(3, 0x32)], 0, true) := by decide
/-- 70_reset_and_hazards.md R162. -/
theorem test_boot : after (step (State.resetWith Config.test)) (fun t => (t.tx, t.gie, t.seq)) =
    some ([6, 0, 0, 0, 0x42, 0x65, 0x6E], true, .sLead) := by decide

/-! ### Witnesses: the hypotheses of every obligation that has some are met together -/

/-- The state runs `k` steps without a stop. -/
def runs (k : Nat) (s : State) : Prop := ∃ t, RunsTo k s t

theorem witness_FrameStreamDecodesToItsInstructions :
    Config.test.OpcodesOk ∧ (∀ i ∈ [Instr.nothing, .info, .on 1, .off 0, .level 255 92, .badop 0x5C, .badstart 0], i.WF Config.test) ∧
    decode Config.test [0x5C, 4, 1] = .incomplete := by
  refine ⟨by decide, fun i hi => ?_, by decide⟩
  simp only [List.mem_cons, List.not_mem_nil, or_false] at hi
  rcases hi with rfl | rfl | rfl | rfl | rfl | rfl | rfl <;> simp only [Instr.WF] <;> decide
theorem witness_EveryByteStringIsFramesAndAnIncompleteEnd :
    decodeStream Config.test [(0x41 : Byte), 0x5C, 2].length [0x41, 0x5C, 2] = ([.badstart 0x41], [0x5C, 2]) := by decide
theorem witness_OpcodeAloneFixesTheFrameLength :
    Config.test.OpcodesOk ∧ ¬ Config.test.isOpcode 5 ∧ ¬ Config.test.isOpcode 0xFF := by decide
theorem witness_LaidWordIsTheNextInstruction :
    decodeTableWord 24 0x5C0201 = some (.on 1) ∧ (booted.cfg.opNothing = 0 ∧ booted.cfg.opOff = 3 ∧ 2 ≤ booted.cfg.rxcap) := by
  decide

/-- A level command with its first three bytes taken. -/
def atLevel : State := { received [0x5C, 4, 1, 50] booted with rd := 3, seq := .sLvl, rOp := 4, rId := 1 }

theorem witness_StepRunsTheDecodedInstruction :
    atLevel.waits ∧ atLevel.rd ≠ atLevel.wr ∧ atLevel.rd < atLevel.cfg.rxcap ∧ atLevel.rxbuf.read atLevel.rd = some 50 ∧
    decode atLevel.cfg (atLevel.framePrefix ++ [50]) = .frame (.level 1 50) [] ∧ atLevel.sched = [] := by decide

/-- Four bytes in the ring. -/
theorem holds_level : (received [0x5C, 4, 1, 50] booted).holdsUnread (encode Config.test (.level 1 50)) := by
  refine ⟨by decide, by decide, by decide, fun k b h => ?_⟩
  rcases k with _ | _ | _ | _ | k
  · rw [← h]; decide
  · rw [← h]; decide
  · rw [← h]; decide
  · rw [← h]; decide
  · simp [encode] at h

theorem witness_FrameIsFetchedByteByByte :
    Config.test.OpcodesOk ∧ (Instr.level 1 50).WF Config.test ∧ (received [0x5C, 4, 1, 50] booted).sched = [] ∧
    (received [0x5C, 4, 1, 50] booted).seq = .sLead ∧
    (received [0x5C, 4, 1, 50] booted).holdsUnread (encode Config.test (.level 1 50)) :=
  ⟨by decide, trivial, rfl, rfl, holds_level⟩

theorem witness_WaitingForegroundHolds :
    (booted.waits ∧ booted.rd = booted.wr ∧ booted.sched = []) ∧
    (∃ t, step { booted with sched := [.zcEdge] } = .next t) ∧
    (edged.gie = true ∧ edged.zcPend = true) ∧
    (matched.chan? 0 = some ⟨some 1, 50, 9994, true, true⟩ ∧ matched.gie = true) ∧
    ((received [0x5C] booted).rd ≠ (received [0x5C] booted).wr ∧ (received [0x5C] booted).rxbuf.read 0 = some 0x5C ∧
      decode Config.test ((received [0x5C] booted).framePrefix ++ [0x5C]) = .incomplete ∧
      ∃ t, step (received [0x5C] booted) = .next t) :=
  ⟨by decide, ⟨_, rfl⟩, by decide, by decide, by decide, by decide, by decide, _, rfl⟩

theorem witness_NothingOnlyConsumesItsBytes :
    booted.cfg.OpcodesOk ∧ booted.cfg.opNothing = 0 ∧ (received [0x5C, 0] booted).sched = [] ∧
    (received [0x5C, 0] booted).seq = .sLead ∧ (received [0x5C, 0] booted).holdsUnread [0x5C, 0x00] := by
  refine ⟨by decide, rfl, rfl, rfl, by decide, by decide, by decide, fun k b h => ?_⟩
  rcases k with _ | _ | k
  · rw [← h]; decide
  · rw [← h]; decide
  · simp at h

/-- The states that the statements about commands start from have their shape. -/
theorem shaped_dimmed : dimmed.Shaped := by
  refine ⟨rfl, rfl, fun u c h => ?_⟩
  rcases u with _ | _ | _ | _ | u
  · exact absurd h (by simp [State.uchOf, State.unit?])
  · obtain rfl : 0 = c := Option.some.inj h
    decide
  · exact absurd h (by simp [State.uchOf, State.unit?, dimmed])
  · exact absurd h (by simp [State.uchOf, State.unit?, dimmed])
  · exact absurd h (by simp [State.uchOf, State.unit?, dimmed])

theorem shaped_exhausted : exhausted.Shaped := by
  refine ⟨rfl, rfl, fun u c h => ?_⟩
  have h' : dimmed.uchOf u = some c := h
  rcases u with _ | _ | _ | _ | u
  · exact absurd h' (by simp [State.uchOf, State.unit?])
  · obtain rfl : 0 = c := Option.some.inj h'
    decide
  · exact absurd h' (by simp [State.uchOf, State.unit?, dimmed])
  · exact absurd h' (by simp [State.uchOf, State.unit?, dimmed])
  · exact absurd h' (by simp [State.uchOf, State.unit?, dimmed])

theorem witness_InfoSendsTheTelemetryBlock :
    ({ dimmed with seq := .sRun, mq := [.i0, .i1, .i2, .i3, .i4, .i5] } : State).Shaped ∧ dimmed.sched = [] ∧
    dimmed.chan? 0 = some ⟨some 1, 50, 9994, true, false⟩ ∧ dimmed.chan? 5 = some ⟨none, 0, 0, false, false⟩ ∧
    dimmed.unit? 1 = some ⟨.dimming, some 0, false⟩ ∧ dimmed.unit? 3 = some ⟨.off, none, false⟩ :=
  ⟨shaped_dimmed, by decide, by decide, by decide, by decide, by decide⟩

/-- Valid ids at both ends, invalid ids at both ends: one unit with a channel, one without. -/
theorem witness_OnLatchesTheUnitHigh :
    dimmed.Shaped ∧ dimmed.sched = [] ∧ (1 ≤ (1 : Byte).toNat ∧ (1 : Byte).toNat ≤ dimmed.cfg.nUnit) ∧
    (1 ≤ (3 : Byte).toNat ∧ (3 : Byte).toNat ≤ dimmed.cfg.nUnit) ∧ (0 : Byte).toNat = 0 ∧
    dimmed.cfg.nUnit < (4 : Byte).toNat ∧ dimmed.uchOf 1 = some 0 ∧ dimmed.uchOf 3 = none :=
  ⟨shaped_dimmed, by decide⟩
theorem witness_OffLatchesTheUnitLow :
    dimmed.Shaped ∧ dimmed.sched = [] ∧ dimmed.cfg.opOff = 3 ∧ (1 ≤ (1 : Byte).toNat ∧ (1 : Byte).toNat ≤ dimmed.cfg.nUnit) ∧
    (1 ≤ (3 : Byte).toNat ∧ (3 : Byte).toNat ≤ dimmed.cfg.nUnit) ∧ (0 : Byte).toNat = 0 ∧
    dimmed.cfg.nUnit < (255 : Byte).toNat :=
  ⟨shaped_dimmed, by decide⟩
theorem witness_LevelOutsideTheDimmingRange :
    dimmed.Shaped ∧ dimmed.sched = [] ∧ (1 ≤ (1 : Byte).toNat ∧ (3 : Byte).toNat ≤ dimmed.cfg.nUnit) ∧
    100 ≤ (100 : Byte).toNat ∧ 100 ≤ (255 : Byte).toNat ∧ (0 : Byte).toNat = 0 ∧ dimmed.cfg.nUnit < (4 : Byte).toNat :=
  ⟨shaped_dimmed, by decide⟩
theorem witness_LevelAcquiresTheFirstFreeChannel :
    (dimmed.Shaped ∧ dimmed.cfg.TableOk ∧ dimmed.sched = [] ∧ 1 ≤ (3 : Byte).toNat ∧ (3 : Byte).toNat ≤ dimmed.cfg.nUnit ∧
      1 ≤ (1 : Byte).toNat ∧ (99 : Byte).toNat ≤ 99 ∧ dimmed.uchOf 3 = none ∧
      dimmed.ownerOf 1 = none ∧ 1 < dimmed.cfg.nChan ∧ ∀ d, d < 1 → dimmed.ownerOf d ≠ none) ∧
    (exhausted.Shaped ∧ exhausted.cfg.TableOk ∧ exhausted.sched = [] ∧ exhausted.uchOf 3 = none ∧
      ∀ c, c < exhausted.cfg.nChan → exhausted.ownerOf c ≠ none) :=
  ⟨⟨shaped_dimmed, Config.test_WF.2.1, by decide, by decide, by decide, by decide, by decide, by decide, by decide, by decide, by decide⟩,
    shaped_exhausted, Config.test_WF.2.1, by decide, by decide, by decide⟩
/-- The extra pulse is due at a counter beyond the old value, and not at it (V-POOL9, V-POOL10). -/
theorem witness_LevelReprogramsTheBoundChannel :
    dimmed.Shaped ∧ dimmed.cfg.TableOk ∧ dimmed.sched = [] ∧ 1 ≤ (1 : Byte).toNat ∧ (1 : Byte).toNat ≤ dimmed.cfg.nUnit ∧
    1 ≤ (99 : Byte).toNat ∧ (99 : Byte).toNat ≤ 99 ∧ dimmed.uchOf (1 : Byte).toNat = some 0 ∧
    dimmed.chan? 0 = some ⟨some 1, 50, 9994, true, false⟩ ∧
    (Config.test.levelTable.getD 99 0).toNat * Config.test.half.toNat / 65536 < (9994 : U16).toNat ∧
    (9994 : U16).toNat < (({ dimmed with pcnt0 := 9995 } : State).pcnt (timerOf Config.test 0)).toNat :=
  ⟨shaped_dimmed, Config.test_WF.2.1, by decide⟩

/-- The opcode of a BADOP frame next. -/
def atOpcode : State := { received [0x5C, 0x5C] booted with rd := 1, seq := .sOpc }

theorem witness_UnknownOpcodeIsAnsweredAndRecovered :
    ¬ atOpcode.cfg.isOpcode 0x5C ∧ atOpcode.sched = [] ∧ atOpcode.seq = .sOpc ∧ atOpcode.rd ≠ atOpcode.wr ∧
    atOpcode.rd < atOpcode.cfg.rxcap ∧ atOpcode.rxbuf.read atOpcode.rd = some 0x5C := by decide
theorem witness_BadLeadByteIsAnsweredAndRecovered :
    ((received [0x5C] booted).sched = [] ∧ (received [0x5C] booted).seq = .sLead ∧
      (received [0x5C] booted).rd ≠ (received [0x5C] booted).wr ∧ (received [0x5C] booted).rd < booted.cfg.rxcap ∧
      (received [0x5C] booted).rxbuf.read 0 = some 0x5C) ∧
    ((received [0x5D] booted).rxbuf.read 0 = some 0x5D ∧ (0x5D : Byte) ≠ 0x5C) := by decide
theorem witness_EveryUnitOrIllegalCommandAnswersOnce :
    Instr.on 1 ≠ .nothing ∧ Instr.on 1 ≠ .info ∧ ∃ t, exec (.on 1) booted = .next t := ⟨by decide, by decide, _, rfl⟩
theorem witness_CommandErrorsTouchNoHardware : ∃ t, exec (.badop 7) booted = .next t ∧
    t.sched = [] ∧ t.seq = .sRun ∧ t.mq = [.resp (status .invalidCommand 7 0), .flush, .curReset] :=
  ⟨_, rfl, rfl, rfl, rfl⟩

/-! ### Witnesses with the invariant -/

/-- The checks on a state with no unit bound. -/
theorem inv_booted : Inv booted :=
  inv_of_checked ⟨by decide, by decide, by decide, by decide⟩ Config.test_WF rfl rfl .idle (by decide) (by decide)
    (by decide) (by decide) rfl rfl rfl (by decide) rfl

/-- Unit 1 dimming, nothing in progress. -/
theorem inv_dimmed : Inv dimmed :=
  inv_of_checked ⟨by decide, by decide, by decide, by decide⟩ Config.test_WF rfl rfl .idle (by decide) (by decide)
    (by decide) (by decide) rfl rfl rfl (by decide) rfl

/-- The same with its flag raised. -/
theorem inv_matched : Inv matched :=
  inv_of_checked ⟨by decide, by decide, by decide, by decide⟩ Config.test_WF rfl rfl .idle (by decide) (by decide)
    (by decide) (by decide) rfl rfl rfl (by decide) rfl

/-- A state in the middle of a command on unit 1 and channel 0, with these registers. -/
def inCommand (x : PowerUnit) (ch : Channel) (q : List MicroStep) : State :=
  { booted with
    units := [x, ⟨.off, none, false⟩, ⟨.off, none, false⟩]
    chans := ch :: List.replicate 5 Channel.reset
    seq := .sRun
    mq := q }

/-- Before A1. -/
def beforeA1 : State := inCommand ⟨.on, none, true⟩ Channel.reset (acquireSteps 0 1 50 ++ [.resp [3, 0, 4, 1]])
/-- Before A2. -/
def beforeA2 : State :=
  inCommand ⟨.on, some 0, true⟩ ⟨some 1, 50, 0, false, false⟩ [.a2 0 50, .a3 1, .a4 0, .a5 1, .resp [3, 0, 4, 1]]
/-- Before A3. -/
def beforeA3 : State :=
  inCommand ⟨.on, some 0, true⟩ ⟨some 1, 50, 9994, false, false⟩ [.a3 1, .a4 0, .a5 1, .resp [3, 0, 4, 1]]
/-- Before A4. -/
def beforeA4 : State :=
  inCommand ⟨.on, some 0, false⟩ ⟨some 1, 50, 9994, false, false⟩ [.a4 0, .a5 1, .resp [3, 0, 4, 1]]
/-- Before L2. -/
def beforeL2 : State :=
  inCommand ⟨.dimming, some 0, false⟩ ⟨some 1, 50, 9994, false, false⟩ [.l2 0, .l3 0 1, .pinLo 1, .resp [3, 0, 3, 1]]
/-- Before L3. -/
def beforeL3 : State :=
  inCommand ⟨.dimming, some 0, false⟩ ⟨some 1, 0, 9994, false, false⟩ [.l3 0 1, .pinLo 1, .resp [3, 0, 3, 1]]

theorem witness_FiringIsMaskedWhileTheBindingChanges :
    (Inv beforeA1 ∧ beforeA1.mq.head? = some (.a1 0 1 50)) ∧ (Inv beforeA2 ∧ beforeA2.mq.head? = some (.a2 0 50)) ∧
    (Inv beforeA3 ∧ beforeA3.mq = .a3 1 :: .a4 0 :: [.a5 1, .resp [3, 0, 4, 1]]) ∧
    (Inv beforeA4 ∧ beforeA4.mq.head? = some (.a4 0)) ∧ (Inv beforeL2 ∧ beforeL2.mq.head? = some (.l2 0)) ∧
    (Inv beforeL3 ∧ beforeL3.mq.head? = some (.l3 0 1)) := by
  refine ⟨⟨?_, rfl⟩, ⟨?_, rfl⟩, ⟨?_, rfl⟩, ⟨?_, rfl⟩, ⟨?_, rfl⟩, ?_, rfl⟩
  · exact inv_of_checked ⟨by decide, by decide, by decide, by decide⟩ Config.test_WF rfl rfl
      (.acquireLink 0 1 50 4 1 Channel.reset ⟨.on, none, true⟩ rfl rfl rfl rfl (by decide))
      (by decide) (by decide) (by decide) (by decide) rfl rfl rfl (by decide) rfl
  · exact inv_of_checked ⟨by decide, by decide, by decide, by decide⟩ Config.test_WF rfl rfl
      (.acquireCompare 0 1 50 4 1 ⟨some 1, 50, 0, false, false⟩ ⟨rfl, rfl⟩ rfl (by decide))
      (by decide) (by decide) (by decide) (by decide) rfl rfl rfl (by decide) rfl
  · exact inv_of_checked ⟨by decide, by decide, by decide, by decide⟩ Config.test_WF rfl rfl
      (.acquirePin 0 1 4 1 ⟨some 1, 50, 9994, false, false⟩ ⟨rfl, rfl⟩ rfl)
      (by decide) (by decide) (by decide) (by decide) rfl rfl rfl (by decide) rfl
  · exact inv_of_checked ⟨by decide, by decide, by decide, by decide⟩ Config.test_WF rfl rfl
      (.acquireEnable 0 1 4 1 ⟨some 1, 50, 9994, false, false⟩ ⟨.on, some 0, false⟩ ⟨rfl, rfl⟩ rfl rfl rfl)
      (by decide) (by decide) (by decide) (by decide) rfl rfl rfl (by decide) rfl
  · exact inv_of_checked ⟨by decide, by decide, by decide, by decide⟩ Config.test_WF rfl rfl
      (.releaseLevel 0 1 (.pinLo 1) 3 1 ⟨some 1, 50, 9994, false, false⟩ ⟨rfl, rfl⟩ rfl (.inr rfl))
      (by decide) (by decide) (by decide) (by decide) rfl rfl rfl (by decide) rfl
  · exact inv_of_checked ⟨by decide, by decide, by decide, by decide⟩ Config.test_WF rfl rfl
      (.releaseLink 0 1 (.pinLo 1) 3 1 ⟨some 1, 0, 9994, false, false⟩ ⟨rfl, rfl⟩ rfl rfl (.inr rfl))
      (by decide) (by decide) (by decide) (by decide) rfl rfl rfl (by decide) rfl

/-- From a state with unit 1 dimming and from one with nothing bound, the same LEVEL runs to its end. -/
theorem witness_LastSuccessfulRequestDecidesTheUnit :
    Inv dimmed ∧ Inv booted ∧ dimmed.waits ∧ booted.waits ∧ dimmed.cfg = booted.cfg ∧ dimmed.sched = [] ∧ booted.sched = [] ∧
    ∃ t₁ t₂, exec (.level 1 99) dimmed = .next t₁ ∧ exec (.level 1 99) booted = .next t₂ ∧ MicroStep.flush ∉ t₁.mq ∧
      MicroStep.flush ∉ t₂.mq ∧ runs t₁.mq.length t₁ ∧ runs t₂.mq.length t₂ :=
  ⟨inv_dimmed, inv_booted, by decide, by decide, by decide, by decide, by decide, _, _, rfl, rfl, by decide, by decide,
    ⟨_, rfl⟩, ⟨_, rfl⟩⟩

theorem witness_CompareValuesDecreaseBelowTheHalfPeriod :
    Config.test.WF ∧ compareValue Config.test 1 = some 19789 ∧ compareValue Config.test 99 = some 199 :=
  ⟨Config.test_WF, by decide, by decide⟩
theorem witness_CompareValueIsTheExactShiftedProduct :
    Config.test.levelTable[1]? = some 64845 ∧ Config.test.levelTable[99]? = some 655 := by decide
theorem witness_BoundaryLevelsBypassPhaseTiming : (0 : Byte).toNat = 0 ∧ 100 ≤ (100 : Byte).toNat := by decide
theorem witness_BoundUnitsNeverExceedTheChannels : Inv dimmed ∧ dimmed.uchOf 1 = some 0 := ⟨inv_dimmed, by decide⟩

/-! ### Witnesses of the other agents -/

theorem witness_ZeroCrossHandlerRecordsAndResynchronises :
    (edged.gie = true ∧ edged.zcPend = true ∧ edged.zcPol = .falling) ∧
    (edgedRising.gie = true ∧ edgedRising.zcPend = true ∧ edgedRising.zcPol = .rising) ∧
    (State.resetWith Config.test).gie = false ∧ booted.zcPend = false := by decide

/-- Info in progress, an edge pending, and the handler between the two bytes of the falling timestamp. -/
def tearing : State :=
  { booted with
    seq := .sRun
    mq := [.i0, .i1, .i2, .i3, .i4, .i5]
    zcFall := 0x40FF
    icr := 0x4100
    zcPend := true
    sched := [.fg, .fg, .zcIrq, .fg] }

/-- The same with the handler between the two bytes of the rising timestamp. -/
def tearingRising : State :=
  { tearing with zcPol := .rising, zcRise := 0x40FF, sched := [.fg, .fg, .fg, .fg, .zcIrq, .fg] }

theorem witness_InfoReadCanTearATimestamp :
    (tearing.seq = .sRun ∧ tearing.mq = [.i0, .i1, .i2, .i3, .i4, .i5] ∧ tearing.gie = true ∧ tearing.zcPend = true ∧
      tearing.zcPol = .falling ∧ tearing.sched = [.fg, .fg, .zcIrq, .fg]) ∧
    (tearingRising.seq = .sRun ∧ tearingRising.mq = [.i0, .i1, .i2, .i3, .i4, .i5] ∧ tearingRising.gie = true ∧
      tearingRising.zcPend = true ∧ tearingRising.zcPol = .rising ∧
      tearingRising.sched = [.fg, .fg, .fg, .fg, .zcIrq, .fg]) := by decide
/-- A flag up, and a step of the capture timer next. -/
def matchedTicking : State := { matched with sched := [.capTick] }

theorem witness_OnlyTicksRaiseAMatchFlag : step matchedTicking = .next { matched with capcnt := 1 } ∧
    matchedTicking.nextMove = .capTick ∧ ({ matched with capcnt := 1 } : State).chan? 0 = some ⟨some 1, 50, 9994, true, true⟩ :=
  ⟨rfl, by decide, by decide⟩
theorem witness_FiringHandlerPulsesTheOwner :
    (matched.chan? 0 = some ⟨some 1, 50, 9994, true, true⟩ ∧ matched.gie = true) ∧
    (({ booted with chans := [⟨none, 0, 0, true, true⟩] } : State).chan? 0 = some ⟨none, 0, 0, true, true⟩) ∧
    (dimmed.chan? 0 = some ⟨some 1, 50, 9994, true, false⟩ ∧ booted.chan? 5 = some ⟨none, 0, 0, false, false⟩) := by decide
theorem witness_MatchThenHandlerIsOnePulse :
    aboutToMatch.gie = true ∧ aboutToMatch.chan? 0 = some ⟨some 1, 50, 9994, true, false⟩ ∧
    phaseNext aboutToMatch.cfg (aboutToMatch.pcnt (timerOf aboutToMatch.cfg 0)) = 9994 ∧
    aboutToMatch.sched = [.phTick (timerOf aboutToMatch.cfg 0), .fireIrq 0] := by decide
theorem witness_FiringHandlersRunInAnyOrder :
    twoMatched.gie = true ∧ twoMatched.chan? 0 = some ⟨some 1, 50, 9994, true, true⟩ ∧
    twoMatched.chan? 1 = some ⟨some 2, 50, 9994, true, true⟩ := by decide
/-- Cursors at the last cell of the ring, one byte before an overrun, and a block not booted. -/
theorem witness_ReceivedByteLandsAtTheWriteCursor :
    (booted.gie = true ∧ ({ booted with wr := 15 } : State).wr < Config.test.rxcap ∧ booted.rxbuf.wf ∧
      (({ booted with wr := 15 } : State).wr + 1) % Config.test.rxcap = booted.rd) ∧
    (State.resetWith Config.test).gie = false := by decide
theorem witness_BootSendsTheHandshake :
    (State.resetWith Config.test).seq = .sBoot ∧ (State.resetWith Config.test).sched = [] := by decide
theorem witness_ResetKeepsNothing : dimmed.cfg = booted.cfg ∧ dimmed ≠ booted := by decide
/-- Each clause at the bound it breaks, and a configuration that breaks none. -/
theorem witness_IllFormedConfigurationIsRefused :
    (({ Config.test with nUnit := 0 } : Cfg).nUnit = 0 ∧ 255 < ({ Config.test with nUnit := 256 } : Cfg).nUnit ∧
      255 < 3 + 4 + 4 * 62 + 3 * ({ Config.test with nChan := 62, nUnit := 1 } : Cfg).nUnit) ∧
    (({ Config.test with half := 0 } : Cfg).half.toNat = 0 ∧
      ({ Config.test with levelTable := [] } : Cfg).levelTable.length ≠ 101 ∧
      (({ Config.test with levelTable := List.replicate 100 0 ++ [1] } : Cfg).levelTable.getD 99 0).toNat <
        (({ Config.test with levelTable := List.replicate 100 0 ++ [1] } : Cfg).levelTable.getD 100 0).toNat ∧
      (Config.test.levelTable.getD 98 0).toNat * ({ Config.test with half := 1 } : Cfg).half.toNat / 65536 ≤
        (Config.test.levelTable.getD 99 0).toNat * ({ Config.test with half := 1 } : Cfg).half.toNat / 65536) ∧
    (({ Config.test with opNothing := 3 } : Cfg).opNothing = Config.test.opOff ∧
      (∀ o, o = 1 ∨ o = 2 ∨ o = 4 → ({ Config.test with opNothing := o } : Cfg).opNothing = o) ∧
      ∀ o, o = 1 ∨ o = 2 ∨ o = 4 → ({ Config.test with opOff := o } : Cfg).opOff = o) ∧
    (({ Config.test with rxcap := 1 } : Cfg).rxcap < 2 ∧
      ({ Config.test with timers := [] } : Cfg).timers.length ≠ Config.test.nChan) ∧ Config.test.WF :=
  ⟨by decide, by decide, ⟨by decide, fun _ _ => rfl, fun _ _ => rfl⟩, by decide, Config.test_WF⟩

/-! ### Witnesses of the whole machine -/

theorem witness_EveryStepKeepsTheInvariant : Inv dimmed ∧ (∃ t, step dimmed = .next t) ∧ Inv beforeA1 ∧ ∃ t, step beforeA1 = .next t :=
  ⟨inv_dimmed, ⟨_, rfl⟩, witness_FiringIsMaskedWhileTheBindingChanges.1.1, _, rfl⟩
theorem witness_ResetStateHasTheInvariant : Config.test.WF := Config.test_WF
theorem witness_InvariantExcludesEveryFault : Inv matched ∧ Inv beforeA1 :=
  ⟨inv_matched, witness_FiringIsMaskedWhileTheBindingChanges.1.1⟩
theorem witness_NoRunFromResetFaultsOrTearsALink : Config.test.WF ∧
    runs 3 { State.resetWith Config.test with sched := [.fg, .rxByte 0x41, .fg] } := ⟨Config.test_WF, _, rfl⟩
theorem witness_HandlersLeaveTheForegroundAlone : (∃ t, step { matched with sched := [.fireIrq 0] } = .next t) ∧
    ({ matched with sched := [.fireIrq 0] } : State).nextMove ≠ .fg ∧
    ({ matched with sched := [.fireIrq 0] } : State).nextMove ≠ .reset := ⟨⟨_, rfl⟩, by decide, by decide⟩
theorem witness_ForegroundLeavesTheTrackerAlone : (∃ t, step beforeA1 = .next t) ∧ beforeA1.nextMove = .fg :=
  ⟨⟨_, rfl⟩, by decide⟩
/-- One step from each state of the sequencer, and one of each kind of agent. -/
theorem witness_SequencerFollowsItsTransitionTable :
    booted.cfg.OpcodesOk ∧ (∃ t, step (State.resetWith Config.test) = .next t) ∧ (∃ t, step (received [0x5C] booted) = .next t) ∧
    (∃ t, step (received [0x41] booted) = .next t) ∧ (∃ t, step atOpcode = .next t) ∧
    (∃ t, step { atOpcode with seq := .sId, rOp := 2 } = .next t) ∧ (∃ t, step { atOpcode with seq := .sId, rOp := 4 } = .next t) ∧
    (∃ t, step atLevel = .next t) ∧ (∃ t, step beforeA1 = .next t) ∧ (∃ t, step { booted with sched := [.capTick] } = .next t) ∧
    (∃ t, step { booted with sched := [.reset] } = .next t) ∧ booted.nextMove = .fg ∧
    ({ booted with sched := [.capTick] } : State).nextMove ≠ .reset :=
  ⟨by decide, ⟨_, rfl⟩, ⟨_, rfl⟩, ⟨_, rfl⟩, ⟨_, rfl⟩, ⟨_, rfl⟩, ⟨_, rfl⟩, ⟨_, rfl⟩, ⟨_, rfl⟩, ⟨_, rfl⟩, ⟨_, rfl⟩, by decide, by decide⟩
theorem witness_HistoriesGrowAndMarksStay : (∃ t, step { matched with sched := [.fireIrq 0] } = .next t) ∧
    ({ matched with sched := [.fireIrq 0] } : State).nextMove ≠ .reset ∧ matched.gie = true := ⟨⟨_, rfl⟩, by decide, by decide⟩
theorem witness_TicksAndEdgesCommuteWithTheForeground : atLevel.seq ≠ .sBoot ∧ runs 2 { atLevel with sched := [.capTick, .fg] } :=
  ⟨by decide, _, rfl⟩

end Sys2Proof.Tests
end

/-!
PROOFS. The frame the opcode fixes, and the byte that starts no frame (spec/30_encoding.md R64, R65, R71, R73).
-/

section
namespace Sys2Proof

/-! ### The length of a frame -/

/-- Settles O3: after ESC the opcode alone selects the format (`decodeOpcode_…`), and the format takes its
operand bytes without looking at them. -/
theorem opcodeAloneFixesTheFrameLength : Obligations.OpcodeAloneFixesTheFrameLength := by
  intro c rest u l op hops
  have after_esc (bs : List Byte) : decode c (0x5C :: bs) = decodeOpcode c bs := decode_esc c bs
  have on_takes (bs : List Byte) : decode c (0x5C :: 2 :: bs) = decodeF1 .on bs :=
    (after_esc _).trans (decodeOpcode_on hops bs)
  have off_takes (bs : List Byte) : decode c (0x5C :: c.opOff :: bs) = decodeF1 .off bs :=
    (after_esc _).trans (decodeOpcode_off hops bs)
  have level_takes (bs : List Byte) : decode c (0x5C :: 4 :: bs) = decodeF2 .level bs :=
    (after_esc _).trans (decodeOpcode_level hops bs)
  exact ⟨(after_esc _).trans (decodeOpcode_nothing c rest), (after_esc _).trans (decodeOpcode_info hops rest),
    fun hop => (after_esc _).trans (decodeOpcode_badop hop rest), on_takes [], on_takes (u :: rest),
    off_takes [], off_takes (u :: rest), level_takes [], level_takes [u], level_takes (u :: l :: rest)⟩

end Sys2Proof

namespace Sys2Proof.Machine

/-! ### Fetching, with the foreground to move -/

/-- In S_LEAD no byte of a frame has been taken (40_commands.md R82). -/
theorem State.framePrefix_of_sLead {s : State} (h : s.seq = .sLead) : s.framePrefix = [] := by
  unfold State.framePrefix
  rw [h]

/-- A byte that starts a frame is not kept: only the read cursor and `seq` move (R82). -/
theorem latchByte_of_sLead {s : State} (h : s.seq = .sLead) (b : Byte) :
    latchByte b s = .next (s.popByte.goto .sOpc) := by
  unfold latchByte
  rw [h]

/-- With nothing scheduled, a waiting sequencer takes the unread byte at the read cursor (R80, R81). -/
theorem step_eq_fetchByte {s : State} {b : Byte} (hs : s.sched = []) (hw : s.waits) (hne : s.rd ≠ s.wr)
    (hr : s.rd < s.cfg.rxcap) (hb : s.rxbuf.read s.rd = some b) : step s = fetchByte b s := by
  rw [step_fg hs, fgStep_waits hw, fetchStep_read hne hr hb]

/-- ESC in S_LEAD starts a frame (R82). -/
theorem fetchByte_esc_of_sLead {s : State} (h : s.seq = .sLead) :
    fetchByte Config.esc s = .next (s.popByte.goto .sOpc) := by
  rw [fetchByte_incomplete, latchByte_of_sLead h]
  rw [State.framePrefix_of_sLead h, List.nil_append, decode_esc, decodeOpcode_nil]

/-- Every other byte in S_LEAD is a whole frame, and is run (30_encoding.md R65). -/
theorem fetchByte_badstart_of_sLead {s : State} {b : Byte} (h : s.seq = .sLead) (hb : b ≠ Config.esc) :
    fetchByte b s = exec (.badstart b) s := by
  apply fetchByte_frame
  rw [State.framePrefix_of_sLead h, List.nil_append, decode_badstart _ hb]

/-! ### The error of a command -/

/-- The meaning of BADSTART: the error InvalidStart is queued, and no latch is written (R82). -/
theorem exec_badstart (b : Byte) (s : State) :
    exec (.badstart b) s = .next (s.popByte.startRun (raiseSteps .invalidStart b 0)) := rfl

/-- The foreground alone works off the error of a command: the status is sent, the input flushed, both cursors
reset, and the sequencer is back in S_LEAD (40_commands.md R93). -/
theorem runsTo_raiseSteps {s : State} {res : ResultCode} {a b : Byte} (hs : s.sched = []) (hr : s.seq = .sRun)
    (hq : s.mq = raiseSteps res a b) :
    RunsTo 3 s
      { s with
        rd := 0, wr := 0, mq := [], seq := .sLead, tx := s.tx ++ status res a b, flushes := s.flushes + 1 } := by
  refine runsTo_micro (m := .resp (status res a b)) hs hr hq rfl ?_
  refine runsTo_micro (m := .flush) hs rfl rfl rfl ?_
  exact runsTo_micro (m := .curReset) hs rfl rfl rfl (runsTo_zero.mpr rfl)

/-- Settles O17: ESC only moves the sequencer on; every other lead byte decodes to BADSTART, whose step queues the error
InvalidStart that three micro-steps work off. -/
theorem badLeadByteIsAnsweredAndRecovered : Obligations.BadLeadByteIsAnsweredAndRecovered := by
  refine ⟨fun s b => ⟨rfl, exec_badstart b s⟩, fun s b hs hlead hne hr hb => ?_⟩
  have hfetch : step s = fetchByte b s := step_eq_fetchByte hs (.inl hlead) hne hr hb
  constructor
  · rintro rfl
    exact hfetch.trans (fetchByte_esc_of_sLead hlead)
  · intro hesc
    have hexec : step s = exec (.badstart b) s := hfetch.trans (fetchByte_badstart_of_sLead hlead hesc)
    refine ⟨decode_badstart s.cfg hesc, hexec, ?_⟩
    have hrecover := runsTo_raiseSteps (s := s.popByte.startRun (raiseSteps .invalidStart b 0)) hs rfl rfl
    exact (runsTo_succ (hexec.trans (exec_badstart b s))).mpr hrecover

/-- Settles O18: a status is its length, the result's byte and the two operands, in each of the seven codes. -/
theorem statusCarriesTheResultCode : Obligations.StatusCarriesTheResultCode :=
  fun _ _ => ⟨rfl, rfl, rfl, rfl, rfl, rfl, rfl⟩

end Sys2Proof.Machine
end

section
namespace Sys2Proof.Machine

/-! ### Unread bytes, taken one at a time -/

/-- The first of the unread bytes stands at the read cursor, and the ring is not empty (20_memory.md R41). -/
theorem State.holdsUnread_head {s : State} {b : Byte} {bs : List Byte} (h : s.holdsUnread (b :: bs)) :
    s.rd ≠ s.wr ∧ s.rd < s.cfg.rxcap ∧ s.rxbuf.read s.rd = some b := by
  obtain ⟨hrd, hwr, hlen, hread⟩ := h
  have hne : s.unread ≠ 0 := by
    rw [List.length_cons] at hlen
    omega
  refine ⟨fun he => hne ((State.unread_eq_zero hrd hwr).mpr he), hrd, ?_⟩
  simpa [Nat.mod_eq_of_lt hrd] using hread 0 b rfl

/-- Taking a byte leaves one unread byte less (R41, R43). -/
theorem State.unread_popByte {s : State} (hrd : s.rd < s.cfg.rxcap) (hwr : s.wr < s.cfg.rxcap) (h : 0 < s.unread) :
    s.popByte.unread + 1 = s.unread := by
  have hnext : s.popByte.rd < s.popByte.cfg.rxcap := Nat.mod_lt _ (by omega)
  have hpop := State.unread_of_lt hnext hwr
  have hwrap : s.popByte.rd = if s.rd + 1 = s.cfg.rxcap then 0 else s.rd + 1 := by
    rw [State.popByte_rd, ringNext]
    split
    case isTrue he => rw [he, Nat.mod_self]
    case isFalse hne => exact Nat.mod_eq_of_lt (by omega)
  rw [State.unread_of_lt hrd hwr] at h ⊢
  rw [hpop, State.popByte_wr, State.popByte_cfg]
  split at h <;> split at hwrap <;> split <;> omega

/-- Taking the first of the unread bytes leaves the others unread, each in its cell (R43). -/
theorem State.popByte_holdsUnread {s : State} {b : Byte} {bs : List Byte} (h : s.holdsUnread (b :: bs)) :
    s.popByte.holdsUnread bs := by
  obtain ⟨hrd, hwr, hlen, hread⟩ := h
  rw [List.length_cons] at hlen
  have hless := State.unread_popByte hrd hwr (by omega)
  refine ⟨Nat.mod_lt _ (by omega), hwr, by omega, fun k b' hk => ?_⟩
  have hcell : (ringNext s.cfg s.rd + k) % s.cfg.rxcap = (s.rd + (k + 1)) % s.cfg.rxcap := by
    rw [ringNext, Nat.mod_add_mod, Nat.add_assoc, Nat.add_comm 1 k]
  exact (congrArg s.rxbuf.read hcell).trans (hread (k + 1) b' hk)

/-- With nothing scheduled, a waiting sequencer takes the first of the unread bytes (40_commands.md R80, R81). -/
theorem step_of_holdsUnread {s : State} {b : Byte} {bs : List Byte} (hs : s.sched = []) (hw : s.waits)
    (h : s.holdsUnread (b :: bs)) : step s = fetchByte b s := by
  obtain ⟨hne, hrd, hread⟩ := State.holdsUnread_head h
  exact step_eq_fetchByte hs hw hne hrd hread

/-! ### The opcode byte -/

/-- In S_OPC only ESC has been taken (R82). -/
theorem State.framePrefix_of_sOpc {s : State} (h : s.seq = .sOpc) : s.framePrefix = [Config.esc] := by
  unfold State.framePrefix
  rw [h]

/-- In S_OPC the opcode alone decides which instruction is run, where it completes the frame (R83). -/
theorem fetchByte_of_sOpc {s : State} {op : Byte} {i : Instr} (h : s.seq = .sOpc)
    (hd : decodeOpcode s.cfg [op] = .frame i []) : fetchByte op s = exec i s := by
  apply fetchByte_frame
  rw [State.framePrefix_of_sOpc h, List.singleton_append, decode_esc, hd]

/-- The meaning of NOTHING: the opcode is latched, and the sequencer waits for the next frame (R87). -/
theorem exec_nothing (s : State) :
    exec .nothing s = .next ((s.popByte.latchOp s.cfg.opNothing).goto .sLead) := rfl

/-- The meaning of BADOP: the opcode is latched, and the error InvalidCommand is queued (R88). -/
theorem exec_badop (op : Byte) (s : State) :
    exec (.badop op) s = .next ((s.popByte.latchOp op).startRun (raiseSteps .invalidCommand op 0)) := rfl

/-- Settles O9: ESC only moves the sequencer on, the opcode byte completes the frame, and NOTHING makes no queue. -/
theorem nothingOnlyConsumesItsBytes : Obligations.NothingOnlyConsumesItsBytes := by
  refine ⟨exec_nothing, fun s _ hop hs hlead hbytes => ?_⟩
  have hesc : step s = .next (s.popByte.goto .sOpc) :=
    (step_of_holdsUnread hs (.inl hlead) hbytes).trans (fetchByte_esc_of_sLead hlead)
  have hopcode : step (s.popByte.goto .sOpc) = exec .nothing (s.popByte.goto .sOpc) := by
    have hrest : (s.popByte.goto .sOpc).holdsUnread [0] := State.popByte_holdsUnread hbytes
    refine (step_of_holdsUnread (s := s.popByte.goto .sOpc) hs (.inr (.inl rfl)) hrest).trans (fetchByte_of_sOpc rfl ?_)
    exact hop ▸ decodeOpcode_nothing s.cfg []
  refine (runsTo_succ hesc).mpr ((runsTo_succ (hopcode.trans (exec_nothing _))).mpr (runsTo_zero.mpr ?_))
  simp [State.popByte, State.goto, State.latchOp, ringNext, hop, Nat.add_assoc]

/-- Settles O16: a byte that is none of the five opcodes decodes to BADOP, whose step queues the error InvalidCommand
that three micro-steps work off. -/
theorem unknownOpcodeIsAnsweredAndRecovered : Obligations.UnknownOpcodeIsAnsweredAndRecovered := by
  refine ⟨fun s op => ⟨rfl, exec_badop op s⟩, fun s op hop hs hopc hne hr hb => ?_⟩
  have hexec : step s = exec (.badop op) s :=
    (step_eq_fetchByte hs (.inr (.inl hopc)) hne hr hb).trans (fetchByte_of_sOpc hopc (decodeOpcode_badop hop []))
  have hrecover := runsTo_raiseSteps
    (s := (s.popByte.latchOp op).startRun (raiseSteps .invalidCommand op 0)) hs rfl rfl
  exact ⟨hexec, (runsTo_succ (hexec.trans (exec_badop op s))).mpr hrecover⟩

/-! ### Registers rewritten in place -/

/-- `updChan` on a channel in range rewrites that entry of the list. -/
theorem updChan_of_lt {s : State} {c : Nat} {f : Channel → Channel} (h : c < s.chans.length) :
    updChan c f s = .next { s with chans := s.chans.modify c f } := by
  rw [updChan_of_some (List.getElem?_eq_getElem h), List.modify_eq_set_getElem?, List.getElem?_eq_getElem h]
  rfl

/-- A unit that exists stands one place before its id in the list (10_state.md R10). -/
theorem State.units_getElem?_of_unit? {s : State} {u : Nat} {x : PowerUnit} (h : s.unit? u = some x) :
    s.units[u - 1]? = some x := by
  unfold State.unit? at h
  split at h
  · cases h
  · exact h

/-- `updUnit` on a valid id rewrites that entry of the list. -/
theorem updUnit_of_valid {s : State} {u : Nat} {f : PowerUnit → PowerUnit} (h1 : 1 ≤ u)
    (h2 : u ≤ s.units.length) : updUnit u f s = .next { s with units := s.units.modify (u - 1) f } := by
  obtain ⟨x, hx⟩ := State.unit?_of_valid h1 h2
  rw [updUnit_of_some hx, List.modify_eq_set_getElem?, State.units_getElem?_of_unit? hx]
  rfl

/-- L3 clears both directions of the link (41_unit_and_pool.md R105). -/
theorem microL3_of_valid {s : State} {c u : Nat} (hc : c < s.chans.length) (h1 : 1 ≤ u) (h2 : u ≤ s.units.length) :
    microL3 c u s = .next { s with
      chans := s.chans.modify c fun ch => { ch with owner := none }
      units := s.units.modify (u - 1) fun x => { x with uch := none } } := by
  rw [microL3, updChan_of_lt hc]
  exact updUnit_of_valid h1 h2

/-! ### Releasing a channel and latching the pin -/

/-- The registers of a channel after its release: only the compare register is kept, and the match flag where
matches are latched while disabled (R105). -/
def Channel.released (c : Cfg) (ch : Channel) : Channel :=
  { owner := none, lvl := 0, cmp := ch.cmp, ie := false, mf := mfAfterRelease c ch.mf }

/-- Latching the pin of a unit with a channel: the entry is rewritten and the channel released. -/
theorem State.latched_of_bound {s : State} {u c : Nat} {st : UState} {level : Bool} (h : s.uchOf u = some c) :
    s.latched u st level = { s with
      units := s.units.modify (u - 1) fun _ => { ustate := st, uch := none, pin := level }
      chans := s.chans.modify c (Channel.released s.cfg) } := by
  unfold State.latched
  rw [h]
  rfl

/-- Latching the pin of a unit without a channel: it stays unbound, and no channel is touched. -/
theorem State.latched_of_free {s : State} {u : Nat} {st : UState} {level : Bool} (h1 : 1 ≤ u)
    (h2 : u ≤ s.units.length) (h : s.uchOf u = none) :
    s.latched u st level = { s with
      units := s.units.modify (u - 1) fun x => { x with ustate := st, pin := level } } := by
  obtain ⟨x, hx⟩ := State.unit?_of_valid h1 h2
  have hfree : x.uch = none := by simpa [State.uchOf, hx] using h
  unfold State.latched
  rw [h, List.modify_eq_set_getElem?, List.modify_eq_set_getElem?, State.units_getElem?_of_unit? hx]
  simp [hfree]

/-- The foreground alone works off `Release` in three steps: the unit is unbound and its channel released (R105). -/
theorem runsTo_releaseSteps {s t : State} {c u k : Nat} {q : List MicroStep} (hs : s.sched = []) (hr : s.seq = .sRun)
    (hc : c < s.chans.length) (h1 : 1 ≤ u) (h2 : u ≤ s.units.length) (hq : s.mq = releaseSteps c u ++ q)
    (r : RunsTo k { s with
      mq := q, seq := seqAfter q
      units := s.units.modify (u - 1) fun x => { x with uch := none }
      chans := s.chans.modify c (Channel.released s.cfg) } t) : RunsTo (k + 3) s t := by
  refine runsTo_micro (m := .l1 c) hs hr hq (updChan_of_lt hc) ?_
  refine runsTo_micro (m := .l2 c) hs rfl rfl (updChan_of_lt (by simpa using hc)) ?_
  refine runsTo_micro (m := .l3 c u) hs rfl rfl (microL3_of_valid (by simpa using hc) h1 h2) ?_
  simp only [List.modify_modify_eq]
  exact r

/-- The foreground alone works off a request that latches the pin of a valid unit: its channel, if it has one, is
released, the pin and the state are latched by `m`, and the answer `bs` is sent (40_commands.md R91, R92,
41_unit_and_pool.md R102). -/
theorem runsTo_latched {s : State} {u : Nat} {m : MicroStep} {st : UState} {level : Bool} {bs : List Byte}
    (hshape : s.Shaped) (hs : s.sched = []) (hr : s.seq = .sRun) (h1 : 1 ≤ u) (h2 : u ≤ s.cfg.nUnit)
    (hm : perform m = updUnit u fun x => { x with ustate := st, pin := level })
    (hq : s.mq = s.releaseIfBound u ++ [m, .resp bs]) :
    RunsTo s.mq.length s { s.latched u st level with mq := [], seq := .sLead, tx := s.tx ++ bs } := by
  obtain ⟨hunits, hchans, hlink⟩ := hshape
  rw [← hunits] at h2
  rw [hq]
  unfold State.releaseIfBound at hq ⊢
  cases huch : s.uchOf u with
  | none =>
    rw [huch] at hq
    rw [State.latched_of_free h1 h2 huch]
    refine runsTo_micro hs hr hq ((congrFun hm _).trans (updUnit_of_valid h1 h2)) ?_
    exact runsTo_micro (m := .resp bs) hs rfl rfl rfl (runsTo_zero.mpr rfl)
  | some c =>
    rw [huch] at hq
    rw [State.latched_of_bound huch]
    have hc : c < s.chans.length := hchans ▸ hlink u c huch
    refine runsTo_releaseSteps hs hr hc h1 h2 hq ?_
    refine runsTo_micro (m := m) hs rfl rfl ((congrFun hm _).trans (updUnit_of_valid h1 (by simpa using h2))) ?_
    refine runsTo_micro (m := .resp bs) hs rfl rfl rfl (runsTo_zero.mpr ?_)
    rw [List.modify_modify_eq]
    rfl

/-- A request that latches the pin of a valid unit answers Success (40_commands.md R90). -/
theorem runsTo_execSteps_latched {s : State} {op id l : Byte} {m : MicroStep} {st : UState} {level : Bool}
    (hshape : s.Shaped) (hs : s.sched = []) (hr : s.seq = .sRun) (h1 : 1 ≤ id.toNat) (h2 : id.toNat ≤ s.cfg.nUnit)
    (hl : setLevelSteps s id.toNat l = (s.releaseIfBound id.toNat ++ [m], .success))
    (hm : perform m = updUnit id.toNat fun x => { x with ustate := st, pin := level })
    (hq : s.mq = execSteps s op id l) :
    RunsTo s.mq.length s
      { s.latched id.toNat st level with mq := [], seq := .sLead, tx := s.tx ++ status .success op id } := by
  refine runsTo_latched hshape hs hr h1 h2 hm ?_
  rw [hq, execSteps_valid h1 h2, hl, respondSteps, if_pos rfl, List.append_assoc]
  rfl

/-- A request on an invalid id answers InvalidId and recovers, whatever the level is (R90, R93). -/
theorem runsTo_execSteps_invalid {s : State} {op id l : Byte} (hs : s.sched = []) (hr : s.seq = .sRun)
    (hid : id.toNat = 0 ∨ s.cfg.nUnit < id.toNat) (hq : s.mq = execSteps s op id l) :
    RunsTo s.mq.length s
      { s with
        rd := 0, wr := 0, mq := [], seq := .sLead, tx := s.tx ++ status .invalidId op id,
        flushes := s.flushes + 1 } := by
  have hraise := hq.trans (execSteps_invalid hid)
  rw [hraise]
  exact runsTo_raiseSteps hs hr hraise

/-- The meaning of ON: the id is latched, and a request for 100 is queued (40_commands.md R91). -/
theorem exec_on (id : Byte) (s : State) :
    exec (.on id) s = .next ((s.popByte.latchId id).startRun (execSteps s Config.opOn id 100)) := rfl

/-- The meaning of OFF: the id is latched, and a request for 0 is queued (R92). -/
theorem exec_off (id : Byte) (s : State) :
    exec (.off id) s = .next ((s.popByte.latchId id).startRun (execSteps s s.cfg.opOff id 0)) := rfl

/-- Settles O11: ON is a request for 100, which ends in `PinHi` on a valid id and in the error InvalidId on any
other. -/
theorem onLatchesTheUnitHigh : Obligations.OnLatchesTheUnitHigh := by
  intro s id hshape hs
  refine ⟨rfl, _, exec_on id s, rfl, ?valid, ?invalid⟩
  case valid =>
    rintro ⟨h1, h2⟩
    exact runsTo_execSteps_latched hshape hs rfl h1 h2 (setLevelSteps_high (l := 100) (by decide)) rfl rfl
  case invalid =>
    intro hid
    exact runsTo_execSteps_invalid hs rfl hid rfl

/-- Settles O12: OFF is a request for 0, which ends in `PinLo` on a valid id and in the error InvalidId on any other. -/
theorem offLatchesTheUnitLow : Obligations.OffLatchesTheUnitLow := by
  intro s id hshape hs
  refine ⟨fun hop => ?encoding, _, exec_off id s, rfl, ?valid, ?invalid⟩
  case encoding => exact hop ▸ rfl
  case valid =>
    rintro ⟨h1, h2⟩
    exact runsTo_execSteps_latched hshape hs rfl h1 h2 (setLevelSteps_low (l := 0) rfl) rfl rfl
  case invalid =>
    intro hid
    exact runsTo_execSteps_invalid hs rfl hid rfl

end Sys2Proof.Machine
end

/-!
PROOFS. The mapping from levels to compare values, and the levels that bypass it (spec/41_unit_and_pool.md R100 to
R102, R105, R110).
-/

section
namespace Sys2Proof.Machine

/-! ### The compare values of the dimming levels -/

/-- A fraction in units of 1/65536 takes a strict part of a nonzero half period, so the product needs no more than
the 16 bits of the compare register (R100). -/
theorem levelFraction_lt_half (e : U16) {h : U16} (hpos : 1 ≤ h.toNat) : (e.toNat * h.toNat) >>> 16 < h.toNat := by
  rw [Nat.shiftRight_eq_div_pow]
  exact Nat.div_lt_of_lt_mul (Nat.mul_lt_mul_of_pos_right e.isLt hpos)

/-- A compare value is below a nonzero half period, whatever the table holds. -/
theorem compareValue_lt_half {c : Cfg} {p : Nat} {v : U16} (hpos : 1 ≤ c.half.toNat)
    (hv : compareValue c p = some v) : v.toNat < c.half.toNat := by
  obtain ⟨-, -, e, -, rfl⟩ := compareValue_eq_some.mp hv
  calc (BitVec.ofNat 16 ((e.toNat * c.half.toNat) >>> 16)).toNat
      ≤ (e.toNat * c.half.toNat) >>> 16 := by
        rw [BitVec.toNat_ofNat]
        exact Nat.mod_le ..
    _ < c.half.toNat := levelFraction_lt_half e hpos

/-- The second clause of R2, on the values themselves. -/
theorem compareValue_strictAnti {c : Cfg} {p₁ p₂ : Nat} {v₁ v₂ : U16} (hc : c.CompareOk) (h1 : 1 ≤ p₁)
    (hlt : p₁ < p₂) (h2 : p₂ ≤ 99) (hv₁ : compareValue c p₁ = some v₁) (hv₂ : compareValue c p₂ = some v₂) :
    v₂.toNat < v₁.toNat := by
  have hdec := hc p₂ (by omega) p₁ hlt h1
  rwa [hv₁, hv₂, Option.getD_some, Option.getD_some] at hdec

/-- Settles O22: R2 makes the table long enough and its products strictly decreasing, and each product is a strict
part of the half period. -/
theorem compareValuesDecreaseBelowTheHalfPeriod : Obligations.CompareValuesDecreaseBelowTheHalfPeriod := by
  rintro c ⟨-, htable, hcompare, -, -⟩
  have hpos : 1 ≤ c.half.toNat := htable.1
  refine ⟨fun p h1 h2 => ?_, fun _ _ _ _ h1 hlt h2 => compareValue_strictAnti hcompare h1 hlt h2⟩
  obtain ⟨v, hv⟩ := compareValue_isSome htable h1 h2
  exact ⟨v, hv, Nat.le_sub_one_of_lt (compareValue_lt_half hpos hv)⟩

/-! ### The levels outside the dimming range -/

/-- A level below or above 1..99 has no compare value, in any configuration (R101). -/
theorem compareValue_eq_none_of_outside {c : Cfg} {p : Nat} (h : p = 0 ∨ 100 ≤ p) : compareValue c p = none :=
  if_neg (by omega)

/-- What releasing a unit's channel, if it has one, can queue: the three release steps of a channel (R105). -/
theorem State.mem_releaseIfBound {s : State} {u : Nat} {m : MicroStep} :
    m ∈ s.releaseIfBound u ↔ ∃ c, s.uchOf u = some c ∧ (m = .l1 c ∨ m = .l2 c ∨ m = .l3 c u) := by
  unfold State.releaseIfBound
  cases s.uchOf u <;> simp [releaseSteps]

/-- Settles O24: outside 1..99 the request is the release of the unit's channel followed by its latch step. -/
theorem boundaryLevelsBypassPhaseTiming : Obligations.BoundaryLevelsBypassPhaseTiming := by
  intro s u l hl
  refine ⟨compareValue_eq_none_of_outside hl, s.releaseIfBound u, ?steps, fun m hm => ?release⟩
  case steps =>
    rcases hl with hzero | hhigh
    · rw [if_pos hzero, setLevelSteps_low hzero]
    · rw [if_neg (by omega), setLevelSteps_high hhigh]
  case release =>
    obtain ⟨c, -, rfl | rfl | rfl⟩ := State.mem_releaseIfBound.mp hm
    · exact .inl ⟨c, rfl⟩
    · exact .inr (.inl ⟨c, rfl⟩)
    · exact .inr (.inr ⟨c, rfl⟩)

end Sys2Proof.Machine
end

/-!
PROOFS. Streams of frames: the decoder inverts the encoder, frame by frame, and reads nothing else
(spec/30_encoding.md section 2).
-/

section
namespace Sys2Proof

/-! ### One frame -/

/-- A frame has the length its class says (30_encoding.md R61, R65). -/
theorem encode_length (c : Cfg) (i : Instr) : (encode c i).length = frameLength i := by
  cases i <;> rfl

/-- Decoding gives back the well-formed instruction encoded, and the bytes behind its frame (R61 to R66). -/
theorem decode_encode_append {c : Cfg} (hops : c.OpcodesOk) {i : Instr} (hi : i.WF c) (rest : List Byte) :
    decode c (encode c i ++ rest) = .frame i rest := by
  cases i with
  | nothing => exact (decode_esc c _).trans (decodeOpcode_nothing c rest)
  | info => exact (decode_esc c _).trans (decodeOpcode_info hops rest)
  | on u => exact (decode_esc c _).trans (decodeOpcode_on hops (u :: rest))
  | off u => exact (decode_esc c _).trans (decodeOpcode_off hops (u :: rest))
  | level u l => exact (decode_esc c _).trans (decodeOpcode_level hops (u :: l :: rest))
  | badop op => exact (decode_esc c _).trans (decodeOpcode_badop hi rest)
  | badstart b => exact decode_badstart c hi rest

/-- What the one operand byte of format F1 can give (R61). -/
theorem decodeF1_eq_frame {mk : Byte → Instr} {bs rest : List Byte} {i : Instr} :
    decodeF1 mk bs = .frame i rest ↔ ∃ u, bs = u :: rest ∧ i = mk u := by
  cases bs with
  | nil => simp [decodeF1]
  | cons u bs =>
    simp only [decodeF1, Decoded.frame.injEq, List.cons.injEq]
    constructor
    · rintro ⟨rfl, rfl⟩
      exact ⟨u, ⟨rfl, rfl⟩, rfl⟩
    · rintro ⟨u', ⟨rfl, rfl⟩, rfl⟩
      exact ⟨rfl, rfl⟩

/-- What the two operand bytes of format F2 can give (R61). -/
theorem decodeF2_eq_frame {mk : Byte → Byte → Instr} {bs rest : List Byte} {i : Instr} :
    decodeF2 mk bs = .frame i rest ↔ ∃ u l, bs = u :: l :: rest ∧ i = mk u l := by
  rcases bs with _ | ⟨u, _ | ⟨l, bs⟩⟩
  · simp [decodeF2]
  · simp [decodeF2]
  · simp only [decodeF2, Decoded.frame.injEq, List.cons.injEq]
    constructor
    · rintro ⟨rfl, rfl⟩
      exact ⟨u, l, ⟨rfl, rfl, rfl⟩, rfl⟩
    · rintro ⟨u', l', ⟨rfl, rfl, rfl⟩, rfl⟩
      exact ⟨rfl, rfl⟩

/-- The cases of the opcode byte behind ESC, in the order in which the decoder tries them (R63, section 6). -/
theorem decodeOpcode_cons (c : Cfg) (op : Byte) (bs : List Byte) :
    (op = c.opNothing ∧ decodeOpcode c (op :: bs) = .frame .nothing bs) ∨
    (op = Config.opInfo ∧ decodeOpcode c (op :: bs) = .frame .info bs) ∨
    (op = Config.opOn ∧ decodeOpcode c (op :: bs) = decodeF1 .on bs) ∨
    (op = c.opOff ∧ decodeOpcode c (op :: bs) = decodeF1 .off bs) ∨
    (op = Config.opLevel ∧ decodeOpcode c (op :: bs) = decodeF2 .level bs) ∨
    (¬ c.isOpcode op ∧ decodeOpcode c (op :: bs) = .frame (.badop op) bs) := by
  by_cases hop : c.isOpcode op
  case neg => exact .inr (.inr (.inr (.inr (.inr ⟨hop, decodeOpcode_badop hop bs⟩))))
  case pos =>
    simp only [decodeOpcode]
    split_ifs with hnothing hinfo hon hoff hlevel
    · exact .inl ⟨hnothing, rfl⟩
    · exact .inr (.inl ⟨hinfo, rfl⟩)
    · exact .inr (.inr (.inl ⟨hon, rfl⟩))
    · exact .inr (.inr (.inr (.inl ⟨hoff, rfl⟩)))
    · exact .inr (.inr (.inr (.inr (.inl ⟨hlevel, rfl⟩))))
    · rcases hop with h | h | h | h | h <;> contradiction

/-- A frame decoded is the encoding of a well-formed instruction and the bytes left over: the decoder drops and
invents no byte. -/
theorem encode_append_of_decode {c : Cfg} {bs rest : List Byte} {i : Instr} (h : decode c bs = .frame i rest) :
    encode c i ++ rest = bs ∧ i.WF c := by
  rcases bs with _ | ⟨b, bs⟩
  · simp at h
  by_cases hb : b = Config.esc
  case neg =>
    rw [decode_badstart c hb, Decoded.frame.injEq] at h
    obtain ⟨rfl, rfl⟩ := h
    exact ⟨rfl, hb⟩
  case pos =>
    subst hb
    rw [decode_esc] at h
    rcases bs with _ | ⟨op, bs⟩
    · simp at h
    obtain ⟨rfl, hd⟩ | ⟨rfl, hd⟩ | ⟨rfl, hd⟩ | ⟨rfl, hd⟩ | ⟨rfl, hd⟩ | ⟨hop, hd⟩ := decodeOpcode_cons c op bs <;>
      rw [hd] at h
    · cases h
      exact ⟨rfl, trivial⟩
    · cases h
      exact ⟨rfl, trivial⟩
    · obtain ⟨u, rfl, rfl⟩ := decodeF1_eq_frame.mp h
      exact ⟨rfl, trivial⟩
    · obtain ⟨u, rfl, rfl⟩ := decodeF1_eq_frame.mp h
      exact ⟨rfl, trivial⟩
    · obtain ⟨u, l, rfl, rfl⟩ := decodeF2_eq_frame.mp h
      exact ⟨rfl, trivial⟩
    · cases h
      exact ⟨rfl, hop⟩

/-- An incomplete frame lacks at least its last byte, and no frame is longer than four bytes (R61, R68). -/
theorem length_of_decode_incomplete {c : Cfg} {bs : List Byte} (h : decode c bs = .incomplete) : bs.length ≤ 3 := by
  rcases bs with _ | ⟨b, _ | ⟨op, _ | ⟨u, _ | ⟨l, bs⟩⟩⟩⟩
  · simp
  · simp
  · simp
  · simp
  · by_cases hb : b = Config.esc
    case neg => simp [decode_badstart c hb] at h
    case pos =>
      subst hb
      rw [decode_esc] at h
      obtain ⟨-, hd⟩ | ⟨-, hd⟩ | ⟨-, hd⟩ | ⟨-, hd⟩ | ⟨-, hd⟩ | ⟨-, hd⟩ := decodeOpcode_cons c op (u :: l :: bs) <;>
        simp [hd, decodeF1, decodeF2] at h

/-! ### A stream of frames -/

/-- An incomplete frame ends the stream, whatever the fuel (R68). -/
theorem decodeStream_of_incomplete {c : Cfg} {bs : List Byte} (h : decode c bs = .incomplete) (fuel : Nat) :
    decodeStream c fuel bs = ([], bs) := by
  cases fuel with
  | zero => rfl
  | succ fuel => simp [decodeStream, h]

/-- A complete frame is the first instruction of the stream. -/
theorem decodeStream_of_frame {c : Cfg} {bs rest : List Byte} {i : Instr} (h : decode c bs = .frame i rest)
    (fuel : Nat) :
    decodeStream c (fuel + 1) bs = (i :: (decodeStream c fuel rest).1, (decodeStream c fuel rest).2) := by
  simp [decodeStream, h]

/-- As much fuel as bytes decodes a stream of frames to its end: every frame takes at least one byte. -/
theorem decodeStream_flatMap_encode {c : Cfg} (hops : c.OpcodesOk) {tail : List Byte}
    (htail : decode c tail = .incomplete) {is : List Instr} (hwf : ∀ i ∈ is, i.WF c) (fuel : Nat)
    (hfuel : (is.flatMap (encode c) ++ tail).length ≤ fuel) :
    decodeStream c fuel (is.flatMap (encode c) ++ tail) = (is, tail) := by
  induction is generalizing fuel with
  | nil => exact decodeStream_of_incomplete htail fuel
  | cons i is ih =>
    obtain ⟨hi, his⟩ := List.forall_mem_cons.mp hwf
    rw [List.flatMap_cons, List.append_assoc] at hfuel ⊢
    have hpos := frameLength_pos i
    rw [List.length_append, encode_length] at hfuel
    obtain ⟨fuel, rfl⟩ : ∃ k, fuel = k + 1 := ⟨fuel - 1, by omega⟩
    rw [decodeStream_of_frame (decode_encode_append hops hi _), ih his fuel (by omega)]

/-- Settles O1, by induction on the frames: each is decoded back (`decode_encode_append`) and takes a byte at least, so
the fuel reaches the incomplete end. -/
theorem frameStreamDecodesToItsInstructions : Obligations.FrameStreamDecodesToItsInstructions :=
  fun _ _ _ hops hwf htail => decodeStream_flatMap_encode hops htail hwf _ le_rfl

/-- With as much fuel as bytes, the frames decoded and the bytes left are the stream, and what is left holds no whole
frame. -/
theorem flatMap_encode_of_decodeStream {c : Cfg} (fuel : Nat) {bs : List Byte} (hfuel : bs.length ≤ fuel) :
    (decodeStream c fuel bs).1.flatMap (encode c) ++ (decodeStream c fuel bs).2 = bs ∧
    (∀ i ∈ (decodeStream c fuel bs).1, i.WF c) ∧ decode c (decodeStream c fuel bs).2 = .incomplete := by
  induction fuel generalizing bs with
  | zero =>
    obtain rfl : bs = [] := List.eq_nil_of_length_eq_zero (by omega)
    simp [decodeStream]
  | succ fuel ih =>
    cases hd : decode c bs with
    | incomplete => simp [decodeStream_of_incomplete hd, hd]
    | frame i rest =>
      obtain ⟨hbs, hi⟩ := encode_append_of_decode hd
      have hpos := frameLength_pos i
      have hlen : (encode c i).length + rest.length = bs.length := by rw [← hbs, List.length_append]
      rw [encode_length] at hlen
      obtain ⟨hrest, hwf, hleft⟩ := ih (bs := rest) (by omega)
      rw [decodeStream_of_frame hd]
      refine ⟨?_, List.forall_mem_cons.mpr ⟨hi, hwf⟩, hleft⟩
      rw [List.flatMap_cons, List.append_assoc, hrest, hbs]

/-- Settles O2: each frame decoded is the encoding of its instruction (`encode_append_of_decode`), and what the decoder
leaves is an incomplete frame, so three bytes at most. -/
theorem everyByteStringIsFramesAndAnIncompleteEnd : Obligations.EveryByteStringIsFramesAndAnIncompleteEnd := by
  intro c bs is left h
  obtain ⟨hbs, hwf, hleft⟩ := flatMap_encode_of_decodeStream (c := c) bs.length (bs := bs) le_rfl
  rw [h] at hbs hwf hleft
  exact ⟨hbs, hwf, hleft, length_of_decode_incomplete hleft⟩

/-- Settles O4: the table's numbering is that of the reset configuration, so each word is a computation. -/
theorem writtenOutWordsDecode : Obligations.WrittenOutWordsDecode :=
  ⟨rfl, rfl, rfl, rfl, rfl, rfl, rfl⟩

end Sys2Proof
end

/-!
PROOFS. What one step of the block can do, said once for each agent: the cases of a step, and the registers it leaves
alone (spec/00_scope.md R4, 40_commands.md R80 to R86, 60_exceptions.md sections 4 and 5). Claims about every step are
read off from these lemmas.
-/

section
namespace Sys2Proof.Machine

/-! ### The agent that moves -/

/-- A step is the move of the next agent, with the schedule one entry shorter (log 1). -/
theorem step_eq_move (s : State) : step s = move s.nextMove { s with sched := s.sched.tail } := by
  cases hs : s.sched with
  | nil =>
    have hself : ({ s with sched := [] } : State) = s := by rw [← hs]
    rw [step_fg hs, State.nextMove, hs]
    exact (congrArg fgStep hself).symm
  | cons m rest =>
    rw [step_move hs, State.nextMove, hs]
    rfl

/-- A scheduled move is made in the state without its entry. -/
@[simp] theorem step_sched_cons (s : State) (m : Move) (rest : List Move) :
    step { s with sched := m :: rest } = move m { s with sched := rest } := rfl

/-! ### The byte under the read cursor -/

/-- `RxPop()` answers a byte exactly for a written cell of the ring (20_memory.md R43). -/
theorem peekByte_eq_ok {s : State} {b : Byte} :
    peekByte s = .ok b ↔ s.rd < s.cfg.rxcap ∧ s.rxbuf.read s.rd = some b := by
  unfold peekByte
  by_cases hr : s.rd < s.cfg.rxcap
  · cases s.rxbuf.read s.rd <;> simp [hr]
  · simp [hr]

/-- A byte taken either completes the frame, whose instruction then runs, or is latched (40_commands.md R82 to R85). -/
theorem fetchByte_cases {b : Byte} {s t : State} (h : fetchByte b s = .next t) :
    (∃ i, decode s.cfg (s.framePrefix ++ [b]) = .frame i [] ∧ exec i s = .next t) ∨
    (decode s.cfg (s.framePrefix ++ [b]) = .incomplete ∧ latchByte b s = .next t) := by
  unfold fetchByte at h
  split at h
  case h_1 i hd => exact .inl ⟨i, hd, h⟩
  case h_2 => cases h
  case h_3 hd => exact .inr ⟨hd, h⟩

/-- The step that completes a command writes only the read cursor and the sequencer's registers (R83 to R85). -/
theorem exec_writes {i : Instr} {s t : State} (h : exec i s = .next t) :
    t = { s with rd := ringNext s.cfg s.rd, rOp := t.rOp, rId := t.rId, mq := t.mq, seq := t.seq } := by
  cases i <;> cases h <;> rfl

/-- A byte that does not complete the frame writes only the read cursor, `seq` and the latches (R82 to R84). -/
theorem latchByte_writes {b : Byte} {s t : State} (h : latchByte b s = .next t) :
    t = { s with rd := ringNext s.cfg s.rd, seq := t.seq, rOp := t.rOp, rId := t.rId } := by
  unfold latchByte at h
  split at h <;> cases h <;> rfl

/-- A byte taken writes only the read cursor and the sequencer's registers (R82 to R85). -/
theorem fetchByte_writes {b : Byte} {s t : State} (h : fetchByte b s = .next t) :
    t = { s with rd := ringNext s.cfg s.rd, rOp := t.rOp, rId := t.rId, mq := t.mq, seq := t.seq } := by
  obtain ⟨i, -, hi⟩ | ⟨-, hl⟩ := fetchByte_cases h
  · exact exec_writes hi
  · have ht := latchByte_writes hl
    have hmq : t.mq = s.mq := (congrArg State.mq ht :)
    rw [hmq]
    exact ht

/-! ### The foreground -/

/-- The four steps of the foreground (40_commands.md R80, R81, R86, 70_reset_and_hazards.md R162). -/
inductive FgCases (s t : State) : Prop
  /-- `Boot`. -/
  | boot (hseq : s.seq = .sBoot) (ht : t = { s.send handshake with gie := true, seq := .sLead })
  /-- No unread byte. -/
  | hold (hw : s.waits) (he : s.rd = s.wr) (ht : t = s)
  /-- `Fetch` of the byte `b`. -/
  | fetch (b : Byte) (hw : s.waits) (hne : s.rd ≠ s.wr) (hr : s.rd < s.cfg.rxcap)
      (hb : s.rxbuf.read s.rd = some b) (hf : fetchByte b s = .next t)
  /-- `Micro` of the head of the queue. -/
  | micro (m : MicroStep) (q : List MicroStep) (hseq : s.seq = .sRun) (hq : s.mq = m :: q)
      (hm : perform m { s with mq := q, seq := seqAfter q } = .next t)

/-- A sequencer that neither boots nor runs waits for a byte. -/
theorem State.waits_of_ne {s : State} (hb : s.seq ≠ .sBoot) (hr : s.seq ≠ .sRun) : s.waits := by
  unfold State.waits
  cases hs : s.seq
  case sBoot => exact absurd hs hb
  case sRun => exact absurd hs hr
  all_goals simp

/-- A waiting sequencer is neither in S_BOOT nor in S_RUN. -/
theorem State.seq_of_waits {s : State} (h : s.waits) : s.seq ≠ .sBoot ∧ s.seq ≠ .sRun := by
  rcases h with h | h | h | h <;> rw [h] <;> decide

/-- What the foreground can do is one of its four steps. -/
theorem fgStep_cases {s t : State} (h : fgStep s = .next t) : FgCases s t := by
  by_cases hboot : s.seq = .sBoot
  · rw [fgStep_boot hboot] at h
    cases h
    exact .boot hboot rfl
  by_cases hrun : s.seq = .sRun
  · rw [fgStep_run hrun] at h
    cases hq : s.mq with
    | nil => simp [microStep, hq] at h
    | cons m q => exact .micro m q hrun hq (microStep_cons hq ▸ h)
  have hw := State.waits_of_ne hboot hrun
  rw [fgStep_waits hw] at h
  unfold fetchStep at h
  split at h
  case isTrue he =>
    cases h
    exact .hold hw he rfl
  case isFalse hne =>
    split at h
    case h_1 b hb =>
      obtain ⟨hr, hread⟩ := peekByte_eq_ok.mp hb
      exact .fetch b hw hne hr hread h
    case h_2 => cases h

/-! ### The micro-steps -/

/-- No match flag is up that was not up before. -/
def NoNewFlag (s t : State) : Prop :=
  ∀ c ch', t.chan? c = some ch' → ch'.mf = true → ∃ ch, s.chan? c = some ch ∧ ch.mf = true

theorem NoNewFlag.of_chans {s t : State} (h : t.chans = s.chans) : NoNewFlag s t :=
  fun c ch' hc hmf => ⟨ch', by rwa [← State.chan?_congr h], hmf⟩

/-- A channel rewritten without raising its flag. -/
theorem NoNewFlag.setChan {s : State} {c : Nat} {ch ch' : Channel} (hc : s.chan? c = some ch)
    (hmf : ch'.mf = true → ch.mf = true) : NoNewFlag s (s.setChan c ch') := by
  intro d x hd hx
  by_cases hdc : d = c
  · subst hdc
    rw [State.chan?_setChan_same hc] at hd
    cases hd
    exact ⟨ch, hc, hmf hx⟩
  · exact ⟨x, by rwa [← State.chan?_setChan_ne hdc], hx⟩

/-- What a micro-step leaves alone: it writes units, channels, the cursors and the outputs only, the outputs grow, and
it raises no match flag (R86, 60_exceptions.md section 5). -/
structure MicroWrites (s t : State) : Prop where
  frame : t = { s with
    units := t.units, chans := t.chans, rd := t.rd, wr := t.wr, tx := t.tx, pulses := t.pulses, flushes := t.flushes }
  tx : s.tx <+: t.tx
  pulses : s.pulses <+: t.pulses
  flushes : s.flushes ≤ t.flushes
  flags : NoNewFlag s t

theorem MicroWrites.send (s : State) (bs : List Byte) : MicroWrites s (s.send bs) :=
  ⟨rfl, List.prefix_append _ _, List.prefix_rfl, le_rfl, .of_chans rfl⟩

theorem MicroWrites.setUnit (s : State) (u : Nat) (x : PowerUnit) : MicroWrites s (s.setUnit u x) :=
  ⟨rfl, List.prefix_rfl, List.prefix_rfl, le_rfl, .of_chans rfl⟩

theorem MicroWrites.setChan {s : State} {c : Nat} {ch ch' : Channel} (hc : s.chan? c = some ch)
    (hmf : ch'.mf = true → ch.mf = true) : MicroWrites s (s.setChan c ch') :=
  ⟨rfl, List.prefix_rfl, List.prefix_rfl, le_rfl, .setChan hc hmf⟩

theorem MicroWrites.setChan_setUnit {s : State} {c u : Nat} {ch ch' : Channel} {x : PowerUnit}
    (hc : s.chan? c = some ch) (hmf : ch'.mf = true → ch.mf = true) :
    MicroWrites s ((s.setChan c ch').setUnit u x) :=
  ⟨rfl, List.prefix_rfl, List.prefix_rfl, le_rfl, NoNewFlag.setChan hc hmf⟩

/-- Reprogram rewrites one channel, keeps its flag, and pulses once more at most (41_unit_and_pool.md R106). -/
theorem MicroWrites.reprogram {s : State} {c u : Nat} {l : Byte} {ch : Channel} {v : U16}
    (hc : s.chan? c = some ch) : MicroWrites s (reprogram c u l ch v s) := by
  have hset : MicroWrites s (s.setChan c { ch with cmp := v, lvl := l }) := .setChan hc id
  unfold Machine.reprogram
  split
  · exact ⟨rfl, List.prefix_rfl, List.prefix_append _ _, le_rfl, hset.flags⟩
  · exact hset

/-- Every micro-step writes what `MicroWrites` says. -/
theorem perform_writes {m : MicroStep} {s t : State} (h : perform m s = .next t) : MicroWrites s t := by
  have send_case {bs : List Byte} (h : Host.Outcome.next (s.send bs) = (.next t : Result)) : MicroWrites s t := by
    cases h
    exact .send s bs
  have unit_case {u : Nat} {f : PowerUnit → PowerUnit} (h : updUnit u f s = .next t) : MicroWrites s t := by
    obtain ⟨x, -, rfl⟩ := updUnit_eq_next.mp h
    exact .setUnit s u (f x)
  have chan_case {c : Nat} {f : Channel → Channel} (h : updChan c f s = .next t)
      (hf : ∀ ch, (f ch).mf = true → ch.mf = true) : MicroWrites s t := by
    obtain ⟨ch, hc, rfl⟩ := updChan_eq_next.mp h
    exact .setChan hc (hf ch)
  cases m with
  | resp bs => exact send_case h
  | i0 => exact send_case h
  | i1 => exact send_case h
  | i2 => exact send_case h
  | i3 => exact send_case h
  | i4 => exact send_case h
  | i5 =>
    obtain rfl := microI5_eq_next h
    exact .send s _
  | flush =>
    cases h
    exact ⟨rfl, List.prefix_rfl, List.prefix_rfl, Nat.le_succ _, .of_chans rfl⟩
  | curReset =>
    cases h
    exact ⟨rfl, List.prefix_rfl, List.prefix_rfl, le_rfl, .of_chans rfl⟩
  | pinHi u => exact unit_case h
  | pinLo u => exact unit_case h
  | a1 c u l =>
    obtain ⟨ch, x, hc, -, rfl⟩ := microA1_eq_next.mp h
    exact .setChan_setUnit hc id
  | a2 c l =>
    obtain ⟨v, ch, -, hc, rfl⟩ := microA2_eq_next.mp h
    exact .setChan hc id
  | a3 u => exact unit_case h
  | a4 c => exact chan_case h fun _ => id
  | a5 u => exact unit_case h
  | l1 c => exact chan_case h fun _ hmf => (Bool.and_eq_true_iff.mp hmf).1
  | l2 c => exact chan_case h fun _ => id
  | l3 c u =>
    obtain ⟨ch, x, hc, -, rfl⟩ := microL3_eq_next.mp h
    exact .setChan_setUnit hc id
  | p c u l =>
    obtain ⟨v, ch, -, hc, rfl⟩ := microP_eq_next.mp h
    exact .reprogram hc

/-- Reprogram leaves the cursors alone. -/
theorem reprogram_cursors (c u : Nat) (l : Byte) (ch : Channel) (v : U16) (s : State) :
    (reprogram c u l ch v s).rd = s.rd ∧ (reprogram c u l ch v s).wr = s.wr := by
  unfold Machine.reprogram
  split <;> exact ⟨rfl, rfl⟩

/-- Of the micro-steps only CurReset writes the cursors (20_memory.md R44). -/
theorem perform_cursors {m : MicroStep} {s t : State} (h : perform m s = .next t) :
    (t.rd = s.rd ∧ t.wr = s.wr) ∨ (m = .curReset ∧ t.rd = 0 ∧ t.wr = 0) := by
  have unit_case {u : Nat} {f : PowerUnit → PowerUnit} (h : updUnit u f s = .next t) : t.rd = s.rd ∧ t.wr = s.wr := by
    obtain ⟨x, -, rfl⟩ := updUnit_eq_next.mp h
    exact ⟨rfl, rfl⟩
  have chan_case {c : Nat} {f : Channel → Channel} (h : updChan c f s = .next t) : t.rd = s.rd ∧ t.wr = s.wr := by
    obtain ⟨ch, -, rfl⟩ := updChan_eq_next.mp h
    exact ⟨rfl, rfl⟩
  cases m with
  | curReset =>
    cases h
    exact .inr ⟨rfl, rfl, rfl⟩
  | resp bs | i0 | i1 | i2 | i3 | i4 | flush =>
    cases h
    exact .inl ⟨rfl, rfl⟩
  | i5 =>
    obtain rfl := microI5_eq_next h
    exact .inl ⟨rfl, rfl⟩
  | pinHi u | pinLo u | a3 u | a5 u => exact .inl (unit_case h)
  | a4 c | l1 c | l2 c => exact .inl (chan_case h)
  | a1 c u l =>
    obtain ⟨ch, x, -, -, rfl⟩ := microA1_eq_next.mp h
    exact .inl ⟨rfl, rfl⟩
  | a2 c l =>
    obtain ⟨v, ch, -, -, rfl⟩ := microA2_eq_next.mp h
    exact .inl ⟨rfl, rfl⟩
  | l3 c u =>
    obtain ⟨ch, x, -, -, rfl⟩ := microL3_eq_next.mp h
    exact .inl ⟨rfl, rfl⟩
  | p c u l =>
    obtain ⟨v, ch, -, -, rfl⟩ := microP_eq_next.mp h
    exact .inl (reprogram_cursors c u l ch v s)

/-! ### The other agents -/

/-- The registers of a channel that the foreground alone writes: all but the match flag (60_exceptions.md R150). -/
def Channel.binding (ch : Channel) : Option Nat × Byte × U16 × Bool := (ch.owner, ch.lvl, ch.cmp, ch.ie)

/-- What an agent other than the foreground and reset leaves alone (60_exceptions.md section 5): it writes the tracker,
the counters, the receive side, the match flags, the pulses and the marks only; the pulses grow, and no mark is
cleared. -/
structure AgentWrites (s t : State) : Prop where
  frame : t = { s with
    chans := t.chans, zcFall := t.zcFall, zcRise := t.zcRise, zcPol := t.zcPol, capcnt := t.capcnt, icr := t.icr,
    zcPend := t.zcPend, pcnt0 := t.pcnt0, pcnt1 := t.pcnt1, rxbuf := t.rxbuf, wr := t.wr, pulses := t.pulses,
    fRxOverrun := t.fRxOverrun, fTornLink := t.fTornLink, fZcLost := t.fZcLost }
  bindings : t.chans.map Channel.binding = s.chans.map Channel.binding
  pulses : s.pulses <+: t.pulses
  overrun : s.fRxOverrun = true → t.fRxOverrun = true
  torn : s.fTornLink = true → t.fTornLink = true
  lost : s.fZcLost = true → t.fZcLost = true

/-- A rewritten channel with the same binding leaves the list of bindings alone. -/
theorem map_binding_set {chans : List Channel} {c : Nat} {ch ch' : Channel} (hc : chans[c]? = some ch)
    (hb : ch'.binding = ch.binding) : (chans.set c ch').map Channel.binding = chans.map Channel.binding := by
  obtain ⟨hlt, rfl⟩ := List.getElem?_eq_some_iff.mp hc
  rw [List.map_set, hb, ← List.map_set, List.set_getElem_self]

/-- A match sets the flag only (43_phase_timer.md R131). -/
@[simp] theorem withMatch_binding (cfg : Cfg) (count : U16) (ch : Channel) :
    (withMatch cfg count ch).binding = ch.binding := rfl

/-- A tick writes no register of a channel but the match flag (R130, R131). -/
theorem tickChannels_binding (cfg : Cfg) (tm : Timer) (count : U16) (chans : List Channel) :
    (tickChannels cfg tm count chans).map Channel.binding = chans.map Channel.binding := by
  apply List.ext_getElem?
  intro c
  rw [List.getElem?_map, List.getElem?_map, tickChannels_getElem?, Option.map_map]
  congr 1
  funext ch
  simp only [Function.comp_apply]
  split <;> simp

/-- ZcIrq writes the tracker and the counters. -/
theorem zcIrq_writes {s t : State} (h : zcIrq s = .next t) : AgentWrites s t ∧ t.chans = s.chans := by
  obtain ⟨-, -, ⟨-, rfl⟩ | ⟨-, rfl⟩⟩ := zcIrq_eq_next.mp h <;>
    exact ⟨⟨rfl, rfl, List.prefix_rfl, id, id, id⟩, rfl⟩

/-- FireIrq writes the flag of its channel, and a pulse or the mark F_TORNLINK. -/
theorem fireIrq_writes {c : Nat} {s t : State} (h : fireIrq c s = .next t) : AgentWrites s t ∧ NoNewFlag s t := by
  obtain ⟨ch, hc, -, -, -, rfl⟩ := fireIrq_eq_next.mp h
  have hb := map_binding_set (ch' := { ch with mf := false }) hc rfl
  have hflags : NoNewFlag s (s.setChan c { ch with mf := false }) := .setChan hc (fun hmf => nomatch hmf)
  cases ho : ch.owner with
  | none =>
    rw [fireChannel_unowned ho]
    exact ⟨⟨rfl, hb, List.prefix_rfl, id, fun _ => rfl, id⟩, hflags⟩
  | some u =>
    rw [fireChannel_owned ho]
    exact ⟨⟨rfl, hb, List.prefix_append _ _, id, id, id⟩, hflags⟩

/-- PhTick writes its counter and match flags. -/
theorem phTick_writes {tm : Timer} {s t : State} (h : phTick tm s = .next t) : AgentWrites s t := by
  cases h
  cases tm <;> exact ⟨rfl, tickChannels_binding _ _ _ _, List.prefix_rfl, id, id, id⟩

/-- RxByte writes the ring, the write cursor and the mark F_RXOVERRUN. -/
theorem rxByte_writes {b : Byte} {s t : State} (h : rxByte b s = .next t) : AgentWrites s t ∧ t.chans = s.chans := by
  obtain ⟨-, -, rfl⟩ := rxByte_eq_next.mp h
  exact ⟨⟨rfl, rfl, List.prefix_rfl, fun ho => Bool.or_eq_true_iff.mpr (.inl ho), id, id⟩, rfl⟩

/-- CapTick writes the capture counter. -/
theorem capTick_writes {s t : State} (h : capTick s = .next t) : AgentWrites s t ∧ t.chans = s.chans := by
  cases h
  exact ⟨⟨rfl, rfl, List.prefix_rfl, id, id, id⟩, rfl⟩

/-- ZcEdge writes the capture register, the pending bit and the mark F_ZCLOST. -/
theorem zcEdge_writes {s t : State} (h : zcEdge s = .next t) : AgentWrites s t ∧ t.chans = s.chans := by
  cases h
  exact ⟨⟨rfl, rfl, List.prefix_rfl, id, id, fun hl => Bool.or_eq_true_iff.mpr (.inl hl)⟩, rfl⟩

/-- Every agent but the foreground and reset writes what `AgentWrites` says. -/
theorem move_agent_writes {m : Move} {s t : State} (hfg : m ≠ .fg) (hreset : m ≠ .reset) (h : move m s = .next t) :
    AgentWrites s t := by
  cases m with
  | fg => exact absurd rfl hfg
  | zcIrq => exact (zcIrq_writes h).1
  | fireIrq c => exact (fireIrq_writes h).1
  | capTick => exact (capTick_writes h).1
  | phTick tm => exact phTick_writes h
  | zcEdge => exact (zcEdge_writes h).1
  | rxByte b => exact (rxByte_writes h).1
  | reset => exact absurd rfl hreset

/-- What the foreground leaves alone (60_exceptions.md section 5): the tracker, the counters, the receive RAM and the
marks; the outputs grow, `gie` is never cleared, and no match flag is raised. -/
structure FgWrites (s t : State) : Prop where
  frame : t = { s with
    units := t.units, chans := t.chans, gie := t.gie, rd := t.rd, wr := t.wr, seq := t.seq, rOp := t.rOp, rId := t.rId,
    mq := t.mq, tx := t.tx, pulses := t.pulses, flushes := t.flushes }
  tx : s.tx <+: t.tx
  pulses : s.pulses <+: t.pulses
  flushes : s.flushes ≤ t.flushes
  gie : s.gie = true → t.gie = true
  flags : NoNewFlag s t

/-- Every step of the foreground writes what `FgWrites` says. -/
theorem fgStep_writes {s t : State} (h : fgStep s = .next t) : FgWrites s t := by
  cases fgStep_cases h with
  | boot _ ht =>
    subst ht
    exact ⟨rfl, List.prefix_append _ _, List.prefix_rfl, le_rfl, fun _ => rfl, .of_chans rfl⟩
  | hold _ _ ht =>
    subst ht
    exact ⟨rfl, List.prefix_rfl, List.prefix_rfl, le_rfl, id, .of_chans rfl⟩
  | fetch b _ _ _ _ hf =>
    rw [fetchByte_writes hf]
    exact ⟨rfl, List.prefix_rfl, List.prefix_rfl, le_rfl, id, .of_chans rfl⟩
  | micro m q _ _ hm =>
    obtain ⟨hframe, htx, hpulses, hflushes, hflags⟩ := perform_writes hm
    refine ⟨?_, htx, hpulses, hflushes, fun hg => ?_, hflags⟩
    · rw [hframe]
    · exact (congrArg State.gie hframe).trans hg

/-! ### What every step keeps -/

/-- The reset state has no flag up. -/
theorem resetStep_noNewFlag {s t : State} (h : resetStep s = .next t) : NoNewFlag s t := by
  cases h
  intro c ch' hc hmf
  have hmem : ch' ∈ List.replicate s.cfg.nChan Channel.reset := List.mem_of_getElem? hc
  rw [List.eq_of_mem_replicate hmem] at hmf
  exact absurd hmf (by decide)

/-- Settles O33: a tick is the one move that sets a flag; every other agent's lemma says that no flag is new. -/
theorem onlyTicksRaiseAMatchFlag : Obligations.OnlyTicksRaiseAMatchFlag := by
  intro s t h htick
  rw [step_eq_move] at h
  suffices NoNewFlag { s with sched := s.sched.tail } t from this
  generalize s.nextMove = m at h htick
  cases m with
  | fg => exact (fgStep_writes h).flags
  | zcIrq => exact .of_chans (zcIrq_writes h).2
  | fireIrq c => exact (fireIrq_writes h).2
  | capTick => exact .of_chans (capTick_writes h).2
  | phTick tm => exact absurd rfl (htick tm)
  | zcEdge => exact .of_chans (zcEdge_writes h).2
  | rxByte b => exact .of_chans (rxByte_writes h).2
  | reset => exact resetStep_noNewFlag h

/-- Settles O46: the registers named are outside the frame of `AgentWrites`, and a channel's binding is read off the
list of bindings. -/
theorem handlersLeaveTheForegroundAlone : Obligations.HandlersLeaveTheForegroundAlone := by
  intro s t h hfg hreset
  rw [step_eq_move] at h
  obtain ⟨hframe, hbindings, -⟩ := move_agent_writes hfg hreset h
  have kept {α : Type} (f : State → α) := congrArg f hframe
  refine ⟨kept State.cfg, kept State.units, kept State.rd, kept State.seq, kept State.mq, kept State.rOp,
    kept State.rId, kept State.tx, kept State.flushes, kept State.gie, fun c => ?_⟩
  have hc := congrArg (fun bindings => bindings[c]?) hbindings
  rwa [List.getElem?_map, List.getElem?_map] at hc

/-- Settles O47: the registers named are outside the frame of `FgWrites`, and of the foreground's steps only the
micro-step CurReset writes `wr`. -/
theorem foregroundLeavesTheTrackerAlone : Obligations.ForegroundLeavesTheTrackerAlone := by
  intro s t h hfg
  rw [step_eq_move, hfg] at h
  have hframe := (fgStep_writes h).frame
  have kept {α : Type} (f : State → α) := congrArg f hframe
  refine ⟨kept State.cfg, kept State.zcFall, kept State.zcRise, kept State.zcPol, kept State.capcnt, kept State.icr,
    kept State.zcPend, kept State.pcnt0, kept State.pcnt1, kept State.rxbuf, kept State.fRxOverrun,
    kept State.fTornLink, kept State.fZcLost, ?_⟩
  cases fgStep_cases h with
  | boot _ ht => exact .inl (congrArg State.wr ht :)
  | hold _ _ ht => exact .inl (congrArg State.wr ht :)
  | fetch b _ _ _ _ hf => exact .inl (congrArg State.wr (fetchByte_writes hf) :)
  | micro m q hseq hq hm =>
    obtain ⟨-, hwr⟩ | ⟨rfl, -, hwr⟩ := perform_cursors hm
    · exact .inl hwr
    · exact .inr ⟨hwr, hseq, congrArg List.head? hq⟩

/-- Settles O49: both frames let the histories grow only and clear no mark, and neither lets `cfg` be written. -/
theorem historiesGrowAndMarksStay : Obligations.HistoriesGrowAndMarksStay := by
  intro s t h hreset
  rw [step_eq_move] at h
  by_cases hfg : s.nextMove = .fg
  · rw [hfg] at h
    obtain ⟨hframe, htx, hpulses, hflushes, hgie, -⟩ := fgStep_writes h
    have kept {α : Type} (f : State → α) := congrArg f hframe
    exact ⟨kept State.cfg, htx, hpulses, hflushes, hgie, (kept State.fRxOverrun).trans, (kept State.fTornLink).trans,
      (kept State.fZcLost).trans⟩
  · obtain ⟨hframe, -, hpulses, hoverrun, htorn, hlost⟩ := move_agent_writes hfg hreset h
    have kept {α : Type} (f : State → α) := congrArg f hframe
    exact ⟨kept State.cfg, (kept State.tx).symm ▸ List.prefix_rfl, hpulses, (kept State.flushes).ge,
      (kept State.gie).trans, hoverrun, htorn, hlost⟩

end Sys2Proof.Machine
end

/-!
PROOFS. Fetching: the byte each state of the sequencer takes, frames fetched byte by byte, and the transition table of
`seq` (spec/40_commands.md sections 1 and 4).
-/

section
namespace Sys2Proof

/-- Only ON, OFF and LEVEL have an operand: their opcode byte alone is no whole frame (30_encoding.md R61). -/
theorem decodeOpcode_single_cases {c : Cfg} {op : Byte} (h : decodeOpcode c [op] = .incomplete) :
    op = Config.opOn ∨ op = c.opOff ∨ op = Config.opLevel := by
  obtain ⟨-, hd⟩ | ⟨-, hd⟩ | ⟨hon, -⟩ | ⟨hoff, -⟩ | ⟨hlevel, -⟩ | ⟨-, hd⟩ := decodeOpcode_cons c op []
  · simp [hd] at h
  · simp [hd] at h
  · exact .inl hon
  · exact .inr (.inl hoff)
  · exact .inr (.inr hlevel)
  · simp [hd] at h

/-- An opcode byte alone is never more than a frame. -/
theorem decodeOpcode_single (c : Cfg) (op : Byte) :
    (∃ i, decodeOpcode c [op] = .frame i []) ∨ decodeOpcode c [op] = .incomplete := by
  obtain ⟨-, hd⟩ | ⟨-, hd⟩ | ⟨-, hd⟩ | ⟨-, hd⟩ | ⟨-, hd⟩ | ⟨-, hd⟩ := decodeOpcode_cons c op []
  · exact .inl ⟨_, hd⟩
  · exact .inl ⟨_, hd⟩
  · exact .inr hd
  · exact .inr hd
  · exact .inr hd
  · exact .inl ⟨_, hd⟩

end Sys2Proof

namespace Sys2Proof.Machine

/-! ### The byte taken in each state -/

/-- An opcode with a payload is latched, and the unit id awaited (R83). -/
theorem fetchByte_payload_of_sOpc {s : State} {op : Byte} (h : s.seq = .sOpc)
    (hd : decodeOpcode s.cfg [op] = .incomplete) :
    fetchByte op s = .next ((s.popByte.latchOp op).goto .sId) := by
  rw [fetchByte_incomplete]
  · unfold latchByte
    rw [h]
  · rw [State.framePrefix_of_sOpc h, List.singleton_append, decode_esc, hd]

/-- In S_ID the bytes taken are ESC and the opcode (R83). -/
theorem State.framePrefix_of_sId {s : State} (h : s.seq = .sId) : s.framePrefix = [Config.esc, s.rOp] := by
  unfold State.framePrefix
  rw [h]

/-- In S_LVL the bytes taken are ESC, the opcode and the unit id (R84). -/
theorem State.framePrefix_of_sLvl {s : State} (h : s.seq = .sLvl) :
    s.framePrefix = [Config.esc, s.rOp, s.rId] := by
  unfold State.framePrefix
  rw [h]

/-- The unit id completes ON (R84). -/
theorem fetchByte_on_of_sId {s : State} (hops : s.cfg.OpcodesOk) (h : s.seq = .sId) (hop : s.rOp = Config.opOn)
    (u : Byte) : fetchByte u s = exec (.on u) s := by
  apply fetchByte_frame
  rw [State.framePrefix_of_sId h, hop]
  exact decode_encode_append (i := .on u) hops trivial []

/-- The unit id completes OFF (R84). -/
theorem fetchByte_off_of_sId {s : State} (hops : s.cfg.OpcodesOk) (h : s.seq = .sId) (hop : s.rOp = s.cfg.opOff)
    (u : Byte) : fetchByte u s = exec (.off u) s := by
  apply fetchByte_frame
  rw [State.framePrefix_of_sId h, hop]
  exact decode_encode_append (i := .off u) hops trivial []

/-- The unit id of LEVEL is latched, and the level awaited (R84). -/
theorem fetchByte_level_of_sId {s : State} (hops : s.cfg.OpcodesOk) (h : s.seq = .sId)
    (hop : s.rOp = Config.opLevel) (u : Byte) : fetchByte u s = .next ((s.popByte.latchId u).goto .sLvl) := by
  rw [fetchByte_incomplete]
  · unfold latchByte
    rw [h]
  · rw [State.framePrefix_of_sId h, hop]
    exact (decode_esc _ _).trans (decodeOpcode_level hops [u])

/-- The level completes LEVEL (R85). -/
theorem fetchByte_level_of_sLvl {s : State} (hops : s.cfg.OpcodesOk) (h : s.seq = .sLvl)
    (hop : s.rOp = Config.opLevel) (l : Byte) : fetchByte l s = exec (.level s.rId l) s := by
  apply fetchByte_frame
  rw [State.framePrefix_of_sLvl h, hop]
  exact decode_encode_append (i := .level s.rId l) hops trivial []

/-! ### The foreground's fetch -/

/-- The foreground of a waiting sequencer takes the unread byte at the read cursor (R80, R81). -/
theorem fgStep_eq_fetchByte {s : State} {b : Byte} (hw : s.waits) (hne : s.rd ≠ s.wr) (hr : s.rd < s.cfg.rxcap)
    (hb : s.rxbuf.read s.rd = some b) : fgStep s = fetchByte b s :=
  (fgStep_waits hw).trans (fetchStep_read hne hr hb)

/-- With no unread byte the foreground holds (R81, log 3). -/
theorem fgStep_hold {s : State} (hw : s.waits) (he : s.rd = s.wr) : fgStep s = .next s :=
  (fgStep_waits hw).trans (if_pos he)

/-- Settles O6: the foreground's fetch of the byte is `exec` of the frame it completes, whatever the schedule holds. -/
theorem stepRunsTheDecodedInstruction : Obligations.StepRunsTheDecodedInstruction := by
  intro s b i hw hne hr hb hd
  have runs_frame (rest : List Move) : fgStep { s with sched := rest } = exec i { s with sched := rest } :=
    (fgStep_eq_fetchByte (s := { s with sched := rest }) hw hne hr hb).trans
      (fetchByte_frame (s := { s with sched := rest }) hd)
  exact ⟨fun hs => (step_fg hs).trans (runs_frame s.sched), runs_frame⟩

/-! ### A frame fetched byte by byte -/

/-- A run with one more step at its end. -/
theorem runsTo_snoc {k : Nat} {s t t' : State} (h : RunsTo k s t) (ht : step t = .next t') : RunsTo (k + 1) s t' := by
  induction k generalizing s with
  | zero =>
    rw [runsTo_zero] at h
    subst h
    exact (runsTo_succ ht).mpr (runsTo_zero.mpr rfl)
  | succ k ih =>
    obtain ⟨s', hs, hrest⟩ := runsTo_succ_inv h
    exact (runsTo_succ hs).mpr (ih hrest)

/-- The frame `bytes` of `i` is fetched up to its last byte, with the exact state before that byte, and then runs. -/
def FetchedUpToLast (s : State) (i : Instr) (bytes : List Byte) : Prop :=
  ∃ p, RunsTo (bytes.length - 1) s p ∧ step p = exec i p ∧ p.framePrefix = bytes.dropLast ∧
    p = { s with
      rd := (s.rd + (bytes.length - 1)) % s.cfg.rxcap
      seq := (s.midFrame bytes).seq
      rOp := (s.midFrame bytes).rOp
      rId := (s.midFrame bytes).rId }

/-- A lead byte other than ESC is its own last byte (R82). -/
theorem fetchedUpToLast_one {s : State} {b : Byte} (hs : s.sched = []) (hlead : s.seq = .sLead)
    (hb : b ≠ Config.esc) (h : s.holdsUnread [b]) : FetchedUpToLast s (.badstart b) [b] := by
  have hrd : s.rd % s.cfg.rxcap = s.rd := Nat.mod_eq_of_lt h.1
  refine ⟨s, runsTo_zero.mpr rfl, ?_, State.framePrefix_of_sLead hlead, ?_⟩
  · exact (step_of_holdsUnread hs (.inl hlead) h).trans (fetchByte_badstart_of_sLead hlead hb)
  · simp [State.midFrame, hrd, ← hlead]

/-- ESC is taken: the sequencer waits for the opcode, and the bytes behind ESC are still unread (R82). -/
theorem step_esc {s : State} {bs : List Byte} (hs : s.sched = []) (hlead : s.seq = .sLead)
    (h : s.holdsUnread (Config.esc :: bs)) :
    step s = .next (s.popByte.goto .sOpc) ∧ (s.popByte.goto .sOpc).holdsUnread bs :=
  ⟨(step_of_holdsUnread hs (.inl hlead) h).trans (fetchByte_esc_of_sLead hlead), State.popByte_holdsUnread h⟩

/-- An opcode that is a whole frame with ESC is the last byte (R83). -/
theorem fetchedUpToLast_two {s : State} {op : Byte} {i : Instr} (hs : s.sched = []) (hlead : s.seq = .sLead)
    (hd : decodeOpcode s.cfg [op] = .frame i []) (h : s.holdsUnread [Config.esc, op]) :
    FetchedUpToLast s i [Config.esc, op] := by
  obtain ⟨hesc, hop⟩ := step_esc hs hlead h
  refine ⟨s.popByte.goto .sOpc, (runsTo_succ hesc).mpr (runsTo_zero.mpr rfl), ?_, rfl, rfl⟩
  exact (step_of_holdsUnread (s := s.popByte.goto .sOpc) hs (.inr (.inl rfl)) hop).trans (fetchByte_of_sOpc rfl hd)

/-- ESC and an opcode with a payload are taken: the sequencer waits for the unit id (R83). -/
theorem runsTo_payload {s : State} {op : Byte} {bs : List Byte} (hs : s.sched = []) (hlead : s.seq = .sLead)
    (hd : decodeOpcode s.cfg [op] = .incomplete) (h : s.holdsUnread (Config.esc :: op :: bs)) :
    ∃ p, RunsTo 2 s p ∧ p.holdsUnread bs ∧
      p = { s with rd := (s.rd + 2) % s.cfg.rxcap, seq := .sId, rOp := op } := by
  obtain ⟨hesc, hop⟩ := step_esc hs hlead h
  have hlatch : step (s.popByte.goto .sOpc) = .next (((s.popByte.goto .sOpc).popByte.latchOp op).goto .sId) :=
    (step_of_holdsUnread (s := s.popByte.goto .sOpc) hs (.inr (.inl rfl)) hop).trans
      (fetchByte_payload_of_sOpc rfl hd)
  refine ⟨_, (runsTo_succ hesc).mpr ((runsTo_succ hlatch).mpr (runsTo_zero.mpr rfl)), ?_, ?_⟩
  · exact State.popByte_holdsUnread hop
  · simp [State.popByte, State.goto, State.latchOp, ringNext, Nat.add_assoc]

/-- The unit id of ON and OFF is the last byte (R84). -/
theorem fetchedUpToLast_three {s : State} {op u : Byte} {i : Instr} (hs : s.sched = []) (hlead : s.seq = .sLead)
    (hd : decodeOpcode s.cfg [op] = .incomplete)
    (hi : ∀ p : State, p.cfg = s.cfg → p.seq = .sId → p.rOp = op → fetchByte u p = exec i p)
    (h : s.holdsUnread [Config.esc, op, u]) : FetchedUpToLast s i [Config.esc, op, u] := by
  obtain ⟨p, hrun, hu, hp⟩ := runsTo_payload hs hlead hd h
  have hsched : p.sched = [] := (congrArg State.sched hp).trans hs
  have hseq : p.seq = .sId := congrArg State.seq hp
  have hop : p.rOp = op := congrArg State.rOp hp
  refine ⟨p, hrun, ?_, by rw [State.framePrefix_of_sId hseq, hop]; rfl, hp⟩
  exact (step_of_holdsUnread hsched (.inr (.inr (.inl hseq))) hu).trans (hi p (congrArg State.cfg hp :) hseq hop)

/-- Of the four bytes of LEVEL the level is the last (R85). -/
theorem fetchedUpToLast_level {s : State} {u l : Byte} (hops : s.cfg.OpcodesOk) (hs : s.sched = [])
    (hlead : s.seq = .sLead) (h : s.holdsUnread [Config.esc, Config.opLevel, u, l]) :
    FetchedUpToLast s (.level u l) [Config.esc, Config.opLevel, u, l] := by
  obtain ⟨p, hrun, hu, hp⟩ := runsTo_payload hs hlead (decodeOpcode_level hops []) h
  have hsched : p.sched = [] := (congrArg State.sched hp).trans hs
  have hseq : p.seq = .sId := congrArg State.seq hp
  have hop : p.rOp = Config.opLevel := congrArg State.rOp hp
  have hcfg : p.cfg.OpcodesOk := (congrArg State.cfg hp).symm ▸ hops
  have hid : step p = .next ((p.popByte.latchId u).goto .sLvl) :=
    (step_of_holdsUnread hsched (.inr (.inr (.inl hseq))) hu).trans (fetchByte_level_of_sId hcfg hseq hop u)
  have hlvl : step ((p.popByte.latchId u).goto .sLvl) = exec (.level u l) ((p.popByte.latchId u).goto .sLvl) :=
    (step_of_holdsUnread (s := (p.popByte.latchId u).goto .sLvl) hsched (.inr (.inr (.inr rfl)))
      (State.popByte_holdsUnread hu)).trans
      (fetchByte_level_of_sLvl (s := (p.popByte.latchId u).goto .sLvl) hcfg rfl hop l)
  have htaken : ((p.popByte.latchId u).goto .sLvl).framePrefix = [Config.esc, Config.opLevel, u] := by
    rw [State.framePrefix_of_sLvl rfl, ← hop]
    rfl
  refine ⟨_, runsTo_snoc hrun hid, hlvl, htaken, ?_⟩
  rw [hp]
  simp [State.popByte, State.goto, State.latchId, State.midFrame, ringNext]

/-- Settles O7: one lemma for each length of a frame says that all bytes but the last are latched. -/
theorem frameIsFetchedByteByByte : Obligations.FrameIsFetchedByteByByte := by
  intro s i hops hwf hs hlead h
  suffices FetchedUpToLast s i (encode s.cfg i) by
    unfold FetchedUpToLast at this
    rwa [encode_length] at this
  cases i with
  | nothing => exact fetchedUpToLast_two hs hlead (decodeOpcode_nothing s.cfg []) h
  | info => exact fetchedUpToLast_two hs hlead (decodeOpcode_info hops []) h
  | on u =>
    refine fetchedUpToLast_three hs hlead (decodeOpcode_on hops []) (fun p hcfg hseq hop => ?_) h
    exact fetchByte_on_of_sId (hcfg.symm ▸ hops) hseq hop u
  | off u =>
    refine fetchedUpToLast_three hs hlead (decodeOpcode_off hops []) (fun p hcfg hseq hop => ?_) h
    exact fetchByte_off_of_sId (hcfg.symm ▸ hops) hseq (hop.trans (congrArg Cfg.opOff hcfg.symm)) u
  | level u l => exact fetchedUpToLast_level hops hs hlead h
  | badop op => exact fetchedUpToLast_two hs hlead (decodeOpcode_badop hwf []) h
  | badstart b => exact fetchedUpToLast_one hs hlead hwf h

/-! ### A frame laid in the ring -/

/-- In a ring of two cells or more the next cell is another one. -/
theorem mod_ne_succ_mod {n : Nat} (h : 2 ≤ n) (a : Nat) : a % n ≠ (a + 1) % n := by
  intro he
  have hz := Nat.sub_mod_eq_zero_of_mod_eq he.symm
  rw [Nat.add_sub_cancel_left, Nat.mod_eq_of_lt (by omega)] at hz
  omega

/-- The last byte laid is what its cell holds, also where the frame laps the ring. -/
theorem layBytes_read_last (c : Cfg) (bs : List Byte) (b : Byte) (a : Nat) (m : Memory) :
    (layBytes c a (bs ++ [b]) m).read ((a + bs.length) % c.rxcap) = some b := by
  induction bs generalizing a m with
  | nil => simp [layBytes]
  | cons b' bs ih =>
    have hcell : (a + (b' :: bs).length) % c.rxcap = (ringNext c a + bs.length) % c.rxcap := by
      rw [ringNext, Nat.mod_add_mod, List.length_cons, Nat.add_assoc, Nat.add_comm 1]
    rw [hcell, List.cons_append, layBytes]
    exact ih _ _

/-- The sequencer in the middle of a frame that starts with ESC, or of the one byte of a framing error, waits. -/
theorem State.midFrame_waits (s : State) (bytes : List Byte) : (s.midFrame bytes).waits := by
  unfold State.midFrame State.waits
  split <;> simp

/-- In the middle of the frame of an instruction the bytes taken are all of it but the last. -/
theorem State.framePrefix_midFrame (s : State) (i : Instr) :
    (s.midFrame (encode s.cfg i)).framePrefix = (encode s.cfg i).dropLast := by
  cases i <;> rfl

/-- The frame of a well-formed instruction laid in a ring of two cells or more is run by the next step (log 10). -/
theorem step_layFrame {s : State} {i : Instr} (hops : s.cfg.OpcodesOk) (hwf : i.WF s.cfg) (hcap : 2 ≤ s.cfg.rxcap) :
    step (s.layFrame (encode s.cfg i)) = exec i (s.layFrame (encode s.cfg i)) := by
  have hpos : encode s.cfg i ≠ [] := List.ne_nil_of_length_pos (by
    rw [encode_length]
    exact frameLength_pos i)
  have hsplit := List.dropLast_append_getLast hpos
  have hlen : (encode s.cfg i).length = (encode s.cfg i).dropLast.length + 1 := by
    conv_lhs => rw [← hsplit]
    simp
  let p := s.layFrame (encode s.cfg i)
  have hcfg : p.cfg = s.cfg := by cases i <;> rfl
  have hrd : p.rd = (s.rd + (encode s.cfg i).dropLast.length) % s.cfg.rxcap := by
    show (s.rd + (encode s.cfg i).length - 1) % s.cfg.rxcap = _
    rw [hlen]
    rfl
  have hwr : p.wr = (s.rd + (encode s.cfg i).dropLast.length + 1) % s.cfg.rxcap := by
    show (s.rd + (encode s.cfg i).length) % s.cfg.rxcap = _
    rw [hlen]
    rfl
  have hne : p.rd ≠ p.wr := by
    rw [hrd, hwr]
    exact mod_ne_succ_mod hcap _
  have hread : p.rxbuf.read p.rd = some ((encode s.cfg i).getLast hpos) := by
    have hlast := layBytes_read_last s.cfg (encode s.cfg i).dropLast ((encode s.cfg i).getLast hpos) s.rd s.rxbuf
    rw [hsplit] at hlast
    rw [hrd]
    exact hlast
  have hprefix : p.framePrefix = (encode s.cfg i).dropLast := State.framePrefix_midFrame s i
  refine (step_eq_fetchByte (s := p) rfl (State.midFrame_waits s _) hne ?_ hread).trans (fetchByte_frame ?_)
  · rw [hcfg, hrd]
    exact Nat.mod_lt _ (by omega)
  · rw [hprefix, hsplit, hcfg]
    simpa using decode_encode_append hops hwf []

/-- The decoder reads of a configuration its two open opcodes only. -/
theorem decode_congr {c c' : Cfg} (hn : c.opNothing = c'.opNothing) (ho : c.opOff = c'.opOff) (bs : List Byte) :
    decode c bs = decode c' bs := by
  unfold decode decodeOpcode
  rw [hn, ho]

/-- The numbers of NOTHING and OFF in the table keep the five opcodes distinct (R3). -/
theorem opcodesOk_of_table {c : Cfg} (hn : c.opNothing = 0) (ho : c.opOff = 3) : c.OpcodesOk := by
  unfold Cfg.OpcodesOk
  rw [hn, ho]
  decide

/-- Settles O5: the word's bytes start with the whole frame of `i`, which `layFrame` lays. -/
theorem laidWordIsTheNextInstruction : Obligations.LaidWordIsTheNextInstruction := by
  intro s nbits w i hw hn ho hcap
  have hd : ∃ rest, decode s.cfg (paddedBytes nbits w) = .frame i rest := by
    rw [decode_congr (c' := resetCfg) hn ho]
    unfold decodeTableWord at hw
    split at hw
    · cases hw
    · split at hw
      case h_1 j rest hj =>
        cases hw
        exact ⟨rest, hj⟩
      case h_2 => cases hw
  obtain ⟨rest, hd⟩ := hd
  obtain ⟨hbytes, hwf⟩ := encode_append_of_decode hd
  have hlay : s.withFetchWord nbits w = s.layFrame (encode s.cfg i) := by
    unfold State.withFetchWord State.layWord
    rw [hd]
    show s.layFrame ((paddedBytes nbits w).take (frameLength i)) = _
    rw [← hbytes, ← encode_length s.cfg i, List.take_left]
  rw [hlay]
  exact step_layFrame (opcodesOk_of_table hn ho) hwf hcap

/-! ### Waiting -/

/-- No agent but the foreground, reset and RX writes the ring or the write cursor (60_exceptions.md R150). -/
theorem move_ring_kept {m : Move} {s t : State} (hfg : m ≠ .fg) (hreset : m ≠ .reset) (hrx : ∀ b, m ≠ .rxByte b)
    (h : move m s = .next t) : t.rxbuf = s.rxbuf ∧ t.wr = s.wr := by
  cases m with
  | fg => exact absurd rfl hfg
  | zcIrq => obtain ⟨-, -, ⟨-, rfl⟩ | ⟨-, rfl⟩⟩ := zcIrq_eq_next.mp h <;> exact ⟨rfl, rfl⟩
  | fireIrq c =>
    obtain ⟨ch, -, -, -, -, rfl⟩ := fireIrq_eq_next.mp h
    unfold fireChannel
    split <;> exact ⟨rfl, rfl⟩
  | capTick | zcEdge =>
    cases h
    exact ⟨rfl, rfl⟩
  | phTick tm =>
    cases h
    exact ⟨State.setPcnt_rxbuf .., State.setPcnt_wr ..⟩
  | rxByte b => exact absurd rfl (hrx b)
  | reset => exact absurd rfl hreset

/-- Settles O8: the hold is `fgStep_hold`, the other agents' frames hold `seq` and the cursors, and a byte that is
latched has the frame of `latchByte`. -/
theorem waitingForegroundHolds : Obligations.WaitingForegroundHolds := by
  refine ⟨?hold, ?ends, ?others, ?latched⟩
  case hold =>
    intro s hw he
    exact ⟨fun hs => (step_fg hs).trans (fgStep_hold hw he),
      fun rest => fgStep_hold (s := { s with sched := rest }) hw he⟩
  case ends =>
    intro s t hw he h hreset hrx
    rw [step_eq_move] at h
    by_cases hfg : s.nextMove = .fg
    · rw [hfg] at h
      have hhold := fgStep_hold (s := { s with sched := s.sched.tail }) hw he
      cases hhold.symm.trans h
      exact ⟨rfl, rfl, rfl⟩
    · have hframe := (move_agent_writes hfg hreset h).frame
      exact ⟨(congrArg State.seq hframe :), (congrArg State.rd hframe :), (move_ring_kept hfg hreset hrx h).2⟩
  case others =>
    rintro s m rest (rfl | rfl | ⟨tm, rfl⟩ | ⟨rfl, hg, hp⟩ | ⟨c, ch, rfl, hc, hg, hi, hm⟩)
    · exact ⟨_, rfl⟩
    · exact ⟨_, rfl⟩
    · exact ⟨_, rfl⟩
    · obtain hpol | hpol : s.zcPol = .falling ∨ s.zcPol = .rising := by cases s.zcPol <;> simp
      · exact ⟨_, zcIrq_eq_next.mpr ⟨hg, hp, .inl ⟨hpol, rfl⟩⟩⟩
      · exact ⟨_, zcIrq_eq_next.mpr ⟨hg, hp, .inr ⟨hpol, rfl⟩⟩⟩
    · exact ⟨_, fireIrq_enabled (s := { s with sched := rest }) hc hg hi hm⟩
  case latched =>
    intro s t b hw hne hs hb hd h
    rw [step_fg hs] at h
    cases fgStep_cases h with
    | boot hboot _ => exact absurd hboot (State.seq_of_waits hw).1
    | hold _ he _ => exact absurd he hne
    | fetch b' _ _ _ hb' hf =>
      obtain rfl : b = b' := Option.some.inj (hb.symm.trans hb')
      rw [fetchByte_incomplete hd] at hf
      exact latchByte_writes hf
    | micro _ _ hrun => exact absurd hrun (State.seq_of_waits hw).2

/-! ### The transition table -/

/-- Every class but NOTHING leaves a queue to run (R83 to R85, R97). -/
theorem exec_seq {i : Instr} {s t : State} (h : exec i s = .next t) :
    t.seq = if i = .nothing then .sLead else .sRun := by
  cases i <;> cases h <;> rfl

/-- Where the opcode byte leads (R83, R97): it is latched, and a frame that it completes is run. -/
theorem fetchByte_sOpc_seq {s t : State} {b : Byte} (hops : s.cfg.OpcodesOk) (hseq : s.seq = .sOpc)
    (h : fetchByte b s = .next t) :
    t.rOp = b ∧ t.seq =
      if b = s.cfg.opNothing then .sLead
      else if b = Config.opOn ∨ b = s.cfg.opOff ∨ b = Config.opLevel then .sId else .sRun := by
  obtain ⟨hoff, hinfo, hon, hlevel, hoffInfo, -, -⟩ := hops
  have run_case {i : Instr} (hd : decodeOpcode s.cfg [b] = .frame i []) : exec i s = .next t :=
    (fetchByte_of_sOpc hseq hd).symm.trans h
  have latch_case (hd : decodeOpcode s.cfg [b] = .incomplete) : t.rOp = b ∧ t.seq = .sId := by
    cases (fetchByte_payload_of_sOpc hseq hd).symm.trans h
    exact ⟨rfl, rfl⟩
  obtain ⟨rfl, hd⟩ | ⟨rfl, hd⟩ | ⟨rfl, hd⟩ | ⟨rfl, hd⟩ | ⟨rfl, hd⟩ | ⟨hop, hd⟩ := decodeOpcode_cons s.cfg b []
  · cases run_case hd
    exact ⟨rfl, (if_pos rfl).symm⟩
  · have hno : ¬ (Config.opInfo = Config.opOn ∨ Config.opInfo = s.cfg.opOff ∨ Config.opInfo = Config.opLevel) := by
      simp [hoffInfo.symm, show Config.opInfo ≠ Config.opOn by decide, show Config.opInfo ≠ Config.opLevel by decide]
    cases run_case hd
    rw [if_neg hinfo.symm, if_neg hno]
    exact ⟨rfl, rfl⟩
  · rw [if_neg hon.symm, if_pos (.inl rfl)]
    exact latch_case hd
  · rw [if_neg hoff.symm, if_pos (.inr (.inl rfl))]
    exact latch_case hd
  · rw [if_neg hlevel.symm, if_pos (.inr (.inr rfl))]
    exact latch_case hd
  · obtain ⟨hnothing, -, hoprest⟩ := not_or.mp hop |>.imp_right not_or.mp
    cases run_case hd
    rw [if_neg hnothing, if_neg hoprest]
    exact ⟨rfl, rfl⟩

/-- The state of the sequencer behind the head of the queue (R86, R97). -/
theorem seqAfter_eq (m : MicroStep) (q : List MicroStep) :
    seqAfter q = if (m :: q).length = 1 then .sLead else .sRun := by
  cases q <;> simp

/-- Where a lead byte leads (R82, R97). -/
theorem fetchByte_sLead_seq {s t : State} {b : Byte} (hlead : s.seq = .sLead) (h : fetchByte b s = .next t) :
    t.seq = if b = Config.esc then .sOpc else .sRun := by
  by_cases hb : b = Config.esc
  · subst hb
    cases (fetchByte_esc_of_sLead hlead).symm.trans h
    rfl
  · rw [if_neg hb]
    exact exec_seq ((fetchByte_badstart_of_sLead hlead hb).symm.trans h)

/-- The unit id of ON and OFF completes the command (R84, R97). -/
theorem fetchByte_sId_seq {s t : State} {b : Byte} (hops : s.cfg.OpcodesOk) (hid : s.seq = .sId)
    (hop : s.rOp = Config.opOn ∨ s.rOp = s.cfg.opOff) (h : fetchByte b s = .next t) : t.seq = .sRun := by
  rcases hop with hop | hop
  · exact exec_seq ((fetchByte_on_of_sId hops hid hop b).symm.trans h)
  · exact exec_seq ((fetchByte_off_of_sId hops hid hop b).symm.trans h)

/-- The unit id of LEVEL leads to the level byte (R84, R97). -/
theorem fetchByte_sId_level_seq {s t : State} {b : Byte} (hops : s.cfg.OpcodesOk) (hid : s.seq = .sId)
    (hop : s.rOp = Config.opLevel) (h : fetchByte b s = .next t) : t.seq = .sLvl := by
  cases (fetchByte_level_of_sId hops hid hop b).symm.trans h
  rfl

/-- The level completes LEVEL (R85, R97). -/
theorem fetchByte_sLvl_seq {s t : State} {b : Byte} (hops : s.cfg.OpcodesOk) (hlvl : s.seq = .sLvl)
    (hop : s.rOp = Config.opLevel) (h : fetchByte b s = .next t) : t.seq = .sRun :=
  exec_seq ((fetchByte_level_of_sLvl hops hlvl hop b).symm.trans h)

/-- The foreground follows the transition table (R97): by the byte it takes, or by what is left of the queue. -/
theorem fgStep_seq {s t : State} (h : fgStep s = .next t) :
    (s.seq = .sBoot → t.seq = .sLead) ∧
    (s.waits → s.rd = s.wr → t.seq = s.seq) ∧
    (∀ b, s.rd ≠ s.wr → s.rxbuf.read s.rd = some b → s.waits → fetchByte b s = .next t) ∧
    (s.seq = .sRun → t.mq = s.mq.tail ∧ t.seq = if s.mq.length = 1 then .sLead else .sRun) := by
  refine ⟨fun hboot => ?boot, fun hw he => ?hold, fun b hne hb hw => ?fetch, fun hrun => ?micro⟩
  case boot =>
    cases (fgStep_boot hboot).symm.trans h
    rfl
  case hold =>
    cases (fgStep_hold hw he).symm.trans h
    rfl
  case fetch =>
    cases fgStep_cases h with
    | boot hboot _ => exact absurd hboot (State.seq_of_waits hw).1
    | hold _ he _ => exact absurd he hne
    | fetch b' _ _ _ hb' hf => exact Option.some.inj (hb'.symm.trans hb) ▸ hf
    | micro _ _ hrun => exact absurd hrun (State.seq_of_waits hw).2
  case micro =>
    cases fgStep_cases h with
    | boot hboot _ => exact absurd (hrun.symm.trans hboot) (by decide)
    | hold hw => exact absurd hrun (State.seq_of_waits hw).2
    | fetch _ hw => exact absurd hrun (State.seq_of_waits hw).2
    | micro m q _ hq hm =>
      have hframe := (perform_writes hm).frame
      have hseq : t.seq = seqAfter q := (congrArg State.seq hframe :)
      rw [hq, hseq]
      exact ⟨(congrArg State.mq hframe :), seqAfter_eq m q⟩

/-- Settles O48: the foreground's step is fixed by `seq` and the byte taken (`fgStep_seq` and one
lemma for each state that waits), and the other agents' frame holds `seq`. -/
theorem sequencerFollowsItsTransitionTable : Obligations.SequencerFollowsItsTransitionTable := by
  intro s t hops h
  rw [step_eq_move] at h
  refine ⟨fun hreset => ?reset, fun hreset hfg => ?other, fun hfg => ?fg⟩
  case reset =>
    rw [hreset] at h
    cases h
    rfl
  case other => exact (congrArg State.seq (move_agent_writes hfg hreset h).frame :)
  case fg =>
    rw [hfg] at h
    let p : State := { s with sched := s.sched.tail }
    obtain ⟨hboot, hhold, hfetch, hmicro⟩ := fgStep_seq (s := p) h
    refine ⟨hboot, hhold, fun b hne hb => ?_, hmicro⟩
    have taken (hw : s.waits) := hfetch b hne hb hw
    refine ⟨fun hq => fetchByte_sLead_seq (s := p) hq (taken (.inl hq)),
      fun hq => fetchByte_sOpc_seq (s := p) hops hq (taken (.inr (.inl hq))),
      fun hq hop => fetchByte_sId_seq (s := p) hops hq hop (taken (.inr (.inr (.inl hq)))),
      fun hq hop => fetchByte_sId_level_seq (s := p) hops hq hop (taken (.inr (.inr (.inl hq)))),
      fun hq hop => fetchByte_sLvl_seq (s := p) hops hq hop (taken (.inr (.inr (.inr hq))))⟩

end Sys2Proof.Machine
end

/-!
PROOFS. The invariant of the block, cut into the parts that different steps write: the pool of channels and units, the
command in progress, the sequencer, and the ring (spec/10_state.md R19, R26 to R30). Each part says which registers it
reads, so a step has to keep only the parts it writes.
-/

section
namespace Sys2Proof.Machine

/-! ### The parts of the invariant -/

/-- What the invariant asks of one channel (10_state.md R15, R19 (b), (c), 43_phase_timer.md R131). -/
structure Channel.Ok (cfg : Cfg) (ch : Channel) : Prop where
  enabledOwned : ch.ie = true → ch.owner ≠ none
  unownedLevel : ch.owner = none → ch.lvl = 0
  levelRange : ch.lvl.toNat ≤ 99
  flagEnabled : cfg.latchDisabled = false → ch.mf = true → ch.ie = true

/-- The pool: the counts, the link between units and channels, and each channel (R10, R19). -/
structure PoolOk (s : State) : Prop where
  unitCount : s.units.length = s.cfg.nUnit
  chanCount : s.chans.length = s.cfg.nChan
  link : ∀ c u, s.ownerOf c = some u ↔ s.uchOf u = some c
  channels : ∀ c ch, s.chan? c = some ch → ch.Ok s.cfg

/-- A unit that no operation is working on (R19 (a), 41_unit_and_pool.md R102). -/
def PowerUnit.Settled (x : PowerUnit) : Prop :=
  (x.ustate = .dimming ↔ x.uch ≠ none) ∧ (x.pin = true ↔ x.ustate = .on)

/-- Every unit but the one named is settled. -/
def State.OthersSettled (s : State) (busy : Option Nat) : Prop :=
  ∀ u x, s.unit? u = some x → busy ≠ some u → x.Settled

/-- The command whose queue is `q`: what is left of it fits the registers, and it works on one unit at most. -/
structure CommandOk (s : State) (q : List MicroStep) : Prop where
  settled : s.OthersSettled (opUnit q)
  queue : QueueOk s q

/-- The sequencer, its latches and what has been sent (R26, R30, 40_commands.md R84, R85). -/
structure SequencerOk (s : State) : Prop where
  running : s.mq = [] ↔ s.seq ≠ .sRun
  latchId : s.seq = .sId → s.rOp = Config.opOn ∨ s.rOp = s.cfg.opOff ∨ s.rOp = Config.opLevel
  latchLvl : s.seq = .sLvl → s.rOp = Config.opLevel
  booted : s.gie = true ↔ s.seq ≠ .sBoot
  handshakeFirst : if s.gie then handshake <+: s.tx else s.tx = []

/-- The receive ring (R27, R28, 20_memory.md R40). -/
structure RingOk (s : State) : Prop where
  rdRange : s.rd < s.cfg.rxcap
  wrRange : s.wr < s.cfg.rxcap
  ramWf : s.rxbuf.wf
  ramRange : ∀ a, (s.rxbuf.read a).isSome → a < s.cfg.rxcap
  unreadWritten : ∀ k, k < s.unread → (s.rxbuf.read ((s.rd + k) % s.cfg.rxcap)).isSome

/-- The invariant is its parts. -/
theorem inv_iff {s : State} :
    Inv s ↔ s.cfg.WF ∧ PoolOk s ∧ CommandOk s s.mq ∧ SequencerOk s ∧ RingOk s ∧ s.fTornLink = false := by
  constructor
  · intro h
    refine ⟨h.cfgWF, ⟨h.unitCount, h.chanCount, h.link, fun c ch hc => ?_⟩, ⟨h.unitState, h.queue⟩,
      ⟨h.running, h.latchId, h.latchLvl, h.booted, h.handshakeFirst⟩,
      ⟨h.rdRange, h.wrRange, h.ramWf, h.ramRange, h.unreadWritten⟩, h.untorn⟩
    exact ⟨h.enabledOwned c ch hc, h.unownedLevel c ch hc, h.levelRange c ch hc, fun hl => h.flagEnabled hl c ch hc⟩
  · rintro ⟨hcfg, hpool, hcommand, hsequencer, hring, htorn⟩
    exact
      { cfgWF := hcfg, unitCount := hpool.unitCount, chanCount := hpool.chanCount, link := hpool.link
        enabledOwned := fun c ch hc => (hpool.channels c ch hc).enabledOwned
        unownedLevel := fun c ch hc => (hpool.channels c ch hc).unownedLevel
        levelRange := fun c ch hc => (hpool.channels c ch hc).levelRange
        flagEnabled := fun hl c ch hc => (hpool.channels c ch hc).flagEnabled hl
        unitState := hcommand.settled, queue := hcommand.queue, running := hsequencer.running
        latchId := hsequencer.latchId, latchLvl := hsequencer.latchLvl, booted := hsequencer.booted
        rdRange := hring.rdRange, wrRange := hring.wrRange, ramWf := hring.ramWf, ramRange := hring.ramRange
        unreadWritten := hring.unreadWritten, handshakeFirst := hsequencer.handshakeFirst, untorn := htorn }

theorem Inv.pool {s : State} (h : Inv s) : PoolOk s := by
  obtain ⟨-, hpool, -⟩ := inv_iff.mp h
  exact hpool

theorem Inv.ring {s : State} (h : Inv s) : RingOk s := by
  obtain ⟨-, -, -, -, hring, -⟩ := inv_iff.mp h
  exact hring

/-- R2 of the configuration. -/
theorem Inv.tableOk {s : State} (h : Inv s) : s.cfg.TableOk := by
  obtain ⟨-, htable, -⟩ := h.cfgWF
  exact htable

/-- R3 of the configuration. -/
theorem Inv.opcodesOk {s : State} (h : Inv s) : s.cfg.OpcodesOk := by
  obtain ⟨-, -, -, hops, -⟩ := h.cfgWF
  exact hops

/-! ### What each part reads -/

theorem PoolOk.congr {s t : State} (h : PoolOk s) (hcfg : t.cfg = s.cfg) (hunits : t.units = s.units)
    (hchans : t.chans = s.chans) : PoolOk t where
  unitCount := by rw [hunits, hcfg, h.unitCount]
  chanCount := by rw [hchans, hcfg, h.chanCount]
  link c u := by rw [State.ownerOf_congr hchans, State.uchOf_congr hunits, h.link]
  channels c ch hc := hcfg ▸ h.channels c ch (by rwa [State.chan?_congr hchans] at hc)

theorem State.OthersSettled.congr {s t : State} {busy : Option Nat} (h : s.OthersSettled busy)
    (hunits : t.units = s.units) : t.OthersSettled busy :=
  fun u x hx => h u x (by rwa [State.unit?_congr hunits] at hx)

/-- What is left of a command reads the units and the bindings of the channels only. -/
theorem QueueOk.mono {s t : State} {q : List MicroStep} (h : QueueOk s q) (hunits : t.units = s.units)
    (hchans : ∀ c ch, s.chan? c = some ch → ∃ ch', t.chan? c = some ch' ∧ ch'.binding = ch.binding) : QueueOk t q := by
  have chan {c : Nat} {ch : Channel} (hc : s.chan? c = some ch) :
      ∃ ch', t.chan? c = some ch' ∧ ch'.owner = ch.owner ∧ ch'.lvl = ch.lvl ∧ ch'.ie = ch.ie := by
    obtain ⟨ch', hc', hb⟩ := hchans c ch hc
    simp only [Channel.binding, Prod.mk.injEq] at hb
    obtain ⟨ho, hl, -, hi⟩ := hb
    exact ⟨ch', hc', ho, hl, hi⟩
  have bound {c u : Nat} {ch : Channel} (hb : s.bound c u ch) :
      ∃ ch', t.bound c u ch' ∧ ch'.lvl = ch.lvl ∧ ch'.ie = ch.ie := by
    obtain ⟨ch', hc', ho, hl, hi⟩ := chan hb.1
    exact ⟨ch', ⟨hc', ho.trans hb.2⟩, hl, hi⟩
  have unit {u : Nat} {x : PowerUnit} (hx : s.unit? u = some x) : t.unit? u = some x :=
    (State.unit?_congr hunits u).trans hx
  cases h with
  | idle => exact .idle
  | answer op id => exact .answer op id
  | error r a b q hr hq => exact .error r a b q hr hq
  | info q hq => exact .info q hq
  | acquireLink c u l op id ch x hc ho hx hu hl =>
    obtain ⟨ch', hc', ho', -, -⟩ := chan hc
    exact .acquireLink c u l op id ch' x hc' (ho'.trans ho) (unit hx) hu hl
  | acquireCompare c u l op id ch hb hi hl =>
    obtain ⟨ch', hb', -, hi'⟩ := bound hb
    exact .acquireCompare c u l op id ch' hb' (hi'.trans hi) hl
  | acquirePin c u op id ch hb hi =>
    obtain ⟨ch', hb', -, hi'⟩ := bound hb
    exact .acquirePin c u op id ch' hb' (hi'.trans hi)
  | acquireEnable c u op id ch x hb hi hx hpin =>
    obtain ⟨ch', hb', -, hi'⟩ := bound hb
    exact .acquireEnable c u op id ch' x hb' (hi'.trans hi) (unit hx) hpin
  | acquireState c u op id ch x hb hx hpin =>
    obtain ⟨ch', hb', -, -⟩ := bound hb
    exact .acquireState c u op id ch' x hb' (unit hx) hpin
  | releaseMask c u m op id ch hb hm =>
    obtain ⟨ch', hb', -, -⟩ := bound hb
    exact .releaseMask c u m op id ch' hb' hm
  | releaseLevel c u m op id ch hb hi hm =>
    obtain ⟨ch', hb', -, hi'⟩ := bound hb
    exact .releaseLevel c u m op id ch' hb' (hi'.trans hi) hm
  | releaseLink c u m op id ch hb hi hl hm =>
    obtain ⟨ch', hb', hl', hi'⟩ := bound hb
    exact .releaseLink c u m op id ch' hb' (hi'.trans hi) (hl'.trans hl) hm
  | latch u m op id x hx hu hm => exact .latch u m op id x (unit hx) hu hm
  | reprogram c u l op id ch hb hl =>
    obtain ⟨ch', hb', -, -⟩ := bound hb
    exact .reprogram c u l op id ch' hb' hl

theorem QueueOk.congr {s t : State} {q : List MicroStep} (h : QueueOk s q) (hunits : t.units = s.units)
    (hchans : t.chans = s.chans) : QueueOk t q :=
  h.mono hunits fun c ch hc => ⟨ch, by rwa [State.chan?_congr hchans], rfl⟩

theorem CommandOk.congr {s t : State} {q : List MicroStep} (h : CommandOk s q) (hunits : t.units = s.units)
    (hchans : t.chans = s.chans) : CommandOk t q :=
  ⟨h.settled.congr hunits, h.queue.congr hunits hchans⟩

theorem RingOk.congr {s t : State} (h : RingOk s) (hcfg : t.cfg = s.cfg) (hrd : t.rd = s.rd) (hwr : t.wr = s.wr)
    (hbuf : t.rxbuf = s.rxbuf) : RingOk t := by
  have hunread : t.unread = s.unread := by simp only [State.unread, hcfg, hrd, hwr]
  obtain ⟨hrdRange, hwrRange, hwf, hrange, hwritten⟩ := h
  refine ⟨?_, ?_, ?_, ?_, ?_⟩
  · rwa [hrd, hcfg]
  · rwa [hwr, hcfg]
  · rwa [hbuf]
  · rwa [hbuf, hcfg]
  · rwa [hbuf, hcfg, hrd, hunread]

theorem SequencerOk.congr {s t : State} (h : SequencerOk s) (hcfg : t.cfg = s.cfg) (hseq : t.seq = s.seq)
    (hop : t.rOp = s.rOp) (hmq : t.mq = s.mq) (hgie : t.gie = s.gie) (htx : t.tx = s.tx) : SequencerOk t := by
  obtain ⟨hrunning, hid, hlvl, hbooted, hfirst⟩ := h
  refine ⟨?_, ?_, ?_, ?_, ?_⟩
  · rwa [hmq, hseq]
  · rwa [hseq, hop, hcfg]
  · rwa [hseq, hop]
  · rwa [hgie, hseq]
  · rwa [hgie, htx]

/-- The schedule is no state of the block (log 1). -/
theorem Inv.withSched {s : State} (h : Inv s) (l : List Move) : Inv { s with sched := l } := by
  obtain ⟨hcfg, hpool, hcommand, hsequencer, hring, htorn⟩ := inv_iff.mp h
  exact inv_iff.mpr ⟨hcfg, hpool.congr rfl rfl rfl, hcommand.congr rfl rfl, hsequencer.congr rfl rfl rfl rfl rfl rfl,
    hring.congr rfl rfl rfl rfl, htorn⟩

/-! ### The pool: one rule for each write -/

/-- A channel with an owner and that unit name each other (R19). -/
theorem PoolOk.unit_of_bound {s : State} (h : PoolOk s) {c u : Nat} {ch : Channel} (hb : s.bound c u ch) :
    ∃ x, s.unit? u = some x ∧ x.uch = some c := by
  have howner : s.ownerOf c = some u := by rw [State.ownerOf, hb.1, Option.bind_some, hb.2]
  exact Option.bind_eq_some_iff.mp ((h.link c u).mp howner)

/-- A bound unit's channel exists and is bound to it. -/
theorem PoolOk.chan_of_uchOf {s : State} (h : PoolOk s) {c u : Nat} (hu : s.uchOf u = some c) :
    ∃ ch, s.bound c u ch :=
  Option.bind_eq_some_iff.mp ((h.link c u).mpr hu)

/-- A pool that is linked has the shape the configuration gives it. -/
theorem PoolOk.shaped {s : State} (h : PoolOk s) : s.Shaped := by
  refine ⟨h.unitCount, h.chanCount, fun u c hu => ?_⟩
  obtain ⟨ch, hc, -⟩ := h.chan_of_uchOf hu
  rw [← h.chanCount]
  exact State.chan?_isSome_iff.mp (by rw [hc]; rfl)

theorem State.ownerOf_setChan_same {s : State} {c : Nat} {ch ch' : Channel} (hc : s.chan? c = some ch) :
    (s.setChan c ch').ownerOf c = ch'.owner := by
  rw [State.ownerOf, State.chan?_setChan_same hc, Option.bind_some]

theorem State.ownerOf_setChan_ne {s : State} {c d : Nat} {ch' : Channel} (hd : d ≠ c) :
    (s.setChan c ch').ownerOf d = s.ownerOf d := by
  rw [State.ownerOf, State.chan?_setChan_ne hd, State.ownerOf]

theorem State.uchOf_setUnit_same {s : State} {u : Nat} {x x' : PowerUnit} (hx : s.unit? u = some x) :
    (s.setUnit u x').uchOf u = x'.uch := by
  rw [State.uchOf, State.unit?_setUnit_same hx, Option.bind_some]

theorem State.uchOf_setUnit_ne {s : State} {u v : Nat} {x x' : PowerUnit} (hx : s.unit? u = some x) (hv : v ≠ u) :
    (s.setUnit u x').uchOf v = s.uchOf v := by
  rw [State.uchOf, State.unit?_setUnit_ne hx hv, State.uchOf]

/-- The conditions on the channels after one is rewritten. -/
theorem channels_setChan {s : State} {c : Nat} {ch ch' : Channel} (h : ∀ d x, s.chan? d = some x → x.Ok s.cfg)
    (hc : s.chan? c = some ch) (hok : ch'.Ok s.cfg) : ∀ d x, (s.setChan c ch').chan? d = some x → x.Ok s.cfg := by
  intro d x hd
  by_cases hdc : d = c
  · subst hdc
    rw [State.chan?_setChan_same hc] at hd
    cases hd
    exact hok
  · exact h d x (by rwa [State.chan?_setChan_ne hdc] at hd)

/-- A channel rewritten without touching its owner. -/
theorem PoolOk.setChan {s : State} (h : PoolOk s) {c : Nat} {ch ch' : Channel} (hc : s.chan? c = some ch)
    (ho : ch'.owner = ch.owner) (hok : ch'.Ok s.cfg) : PoolOk (s.setChan c ch') where
  unitCount := h.unitCount
  chanCount := by rw [State.setChan_chans, List.length_set]; exact h.chanCount
  link d u := by
    have howner : (s.setChan c ch').ownerOf d = s.ownerOf d := by
      by_cases hdc : d = c
      · subst hdc
        rw [State.ownerOf_setChan_same hc, ho, State.ownerOf, hc, Option.bind_some]
      · exact State.ownerOf_setChan_ne hdc
    rw [howner]
    exact h.link d u
  channels := channels_setChan h.channels hc hok

/-- A unit rewritten without touching its binding. -/
theorem PoolOk.setUnit {s : State} (h : PoolOk s) {u : Nat} {x x' : PowerUnit} (hx : s.unit? u = some x)
    (hu : x'.uch = x.uch) : PoolOk (s.setUnit u x') where
  unitCount := by rw [State.setUnit_units, List.length_set]; exact h.unitCount
  chanCount := h.chanCount
  link c v := by
    have huch : (s.setUnit u x').uchOf v = s.uchOf v := by
      by_cases hvu : v = u
      · subst hvu
        rw [State.uchOf_setUnit_same hx, hu, State.uchOf, hx, Option.bind_some]
      · exact State.uchOf_setUnit_ne hx hvu
    rw [huch]
    exact h.link c v
  channels := h.channels

/-- Both directions of a link written or cleared at once (41_unit_and_pool.md R104, R105): the channel and the unit are
not linked to others before or after. -/
theorem PoolOk.setLink {s : State} (h : PoolOk s) {c u : Nat} {ch ch' : Channel} {x x' : PowerUnit}
    (hc : s.chan? c = some ch) (hx : s.unit? u = some x)
    (hbefore : (ch.owner = none ∧ x.uch = none) ∨ (ch.owner = some u ∧ x.uch = some c))
    (hafter : (ch'.owner = none ∧ x'.uch = none) ∨ (ch'.owner = some u ∧ x'.uch = some c)) (hok : ch'.Ok s.cfg) :
    PoolOk ((s.setChan c ch').setUnit u x') where
  unitCount := by rw [State.setUnit_units, List.length_set]; exact h.unitCount
  chanCount := by rw [State.setUnit_chans, State.setChan_chans, List.length_set]; exact h.chanCount
  link d v := by
    have hlink := h.link
    have hx' : (s.setChan c ch').unit? u = some x := hx
    have howner : s.ownerOf c = ch.owner := by rw [State.ownerOf, hc, Option.bind_some]
    have huch : s.uchOf u = x.uch := by rw [State.uchOf, hx, Option.bind_some]
    show (s.setChan c ch').ownerOf d = some v ↔ _
    by_cases hdc : d = c
    · subst hdc
      rw [State.ownerOf_setChan_same hc]
      by_cases hvu : v = u
      · subst hvu
        rw [State.uchOf_setUnit_same hx']
        rcases hafter with ⟨h1, h2⟩ | ⟨h1, h2⟩ <;> simp [h1, h2]
      · rw [State.uchOf_setUnit_ne hx' hvu]
        show _ ↔ s.uchOf v = some d
        rw [← hlink, howner]
        rcases hbefore with ⟨h1, -⟩ | ⟨h1, -⟩ <;> rcases hafter with ⟨h2, -⟩ | ⟨h2, -⟩ <;>
          simp [h1, h2, Ne.symm hvu]
    · rw [State.ownerOf_setChan_ne hdc, hlink]
      by_cases hvu : v = u
      · subst hvu
        rw [State.uchOf_setUnit_same hx', huch]
        rcases hbefore with ⟨-, h1⟩ | ⟨-, h1⟩ <;> rcases hafter with ⟨-, h2⟩ | ⟨-, h2⟩ <;>
          simp [h1, h2, Ne.symm hdc]
      · rw [State.uchOf_setUnit_ne hx' hvu]
        rfl
  channels := channels_setChan h.channels hc hok

/-! ### The units: one rule for each write -/

/-- The unit worked on is rewritten, and still worked on. -/
theorem State.OthersSettled.setUnit_busy {s : State} {u : Nat} {x x' : PowerUnit} (h : s.OthersSettled (some u))
    (hx : s.unit? u = some x) : (s.setUnit u x').OthersSettled (some u) := by
  intro v y hy hv
  have hvu : v ≠ u := fun he => hv (he ▸ rfl)
  exact h v y (by rwa [State.unit?_setUnit_ne hx hvu] at hy) hv

/-- The unit worked on is rewritten for the last time, and settled. -/
theorem State.OthersSettled.setUnit_settled {s : State} {u : Nat} {x x' : PowerUnit}
    (h : s.OthersSettled (some u)) (hx : s.unit? u = some x) (hs : x'.Settled) :
    (s.setUnit u x').OthersSettled none := by
  intro v y hy _
  by_cases hvu : v = u
  · subst hvu
    rw [State.unit?_setUnit_same hx] at hy
    cases hy
    exact hs
  · exact h v y (by rwa [State.unit?_setUnit_ne hx hvu] at hy) fun he => hvu (Option.some.inj he).symm

/-- With no operation in progress every unit is settled, whatever is named busy. -/
theorem State.OthersSettled.weaken {s : State} (h : s.OthersSettled none) (busy : Option Nat) :
    s.OthersSettled busy := fun u x hx _ => h u x hx (by simp)

/-! ### The micro-steps -/

/-- A micro-step can be performed, and keeps the pool and the rest of its command. -/
def KeepsCommand (s : State) (m : MicroStep) (q : List MicroStep) : Prop :=
  ∃ t, perform m s = .next t ∧ PoolOk t ∧ CommandOk t q

/-- A micro-step that works on no unit and writes no unit and no channel. -/
theorem keepsCommand_of_quiet {s t : State} {m : MicroStep} {q : List MicroStep} (hp : PoolOk s)
    (hc : CommandOk s (m :: q)) (hbusy : busyUnit m = none) (hq : QueueOk s q) (ht : perform m s = .next t)
    (hcfg : t.cfg = s.cfg) (hunits : t.units = s.units) (hchans : t.chans = s.chans) : KeepsCommand s m q := by
  have hop : opUnit (m :: q) = opUnit q := by rw [opUnit, List.findSome?_cons, hbusy]; rfl
  exact ⟨t, ht, hp.congr hcfg hunits hchans, (hop ▸ hc.settled).congr hunits, hq.congr hunits hchans⟩

/-- Every bound unit of a shaped state names a channel that exists, so I5 sends (40_commands.md R89). -/
theorem microI5_of_shaped {s : State} (h : s.Shaped) : microI5 s = .next (s.send (infoTail s)) := by
  obtain ⟨-, hchans, hbound⟩ := h
  refine if_pos (List.all_eq_true.mpr fun x hx => ?_)
  obtain ⟨i, hi⟩ := List.mem_iff_getElem?.mp hx
  have hunit : s.unit? (i + 1) = some x := hi
  cases hu : x.uch with
  | none => rfl
  | some c =>
    have huch : s.uchOf (i + 1) = some c := by rw [State.uchOf, hunit, Option.bind_some, hu]
    simpa [hchans] using hbound _ _ huch

/-- The rest of an error after its head (40_commands.md R93). -/
theorem keepsCommand_error {s : State} {m : MicroStep} {q : List MicroStep} {r : ResultCode} {a b : Byte}
    (hp : PoolOk s) (hc : CommandOk s (m :: q)) (hr : sentCode r) (hq : m :: q <:+ raiseSteps r a b) :
    KeepsCommand s m q := by
  have hrest : QueueOk s q := .error r a b q hr ((List.suffix_cons m q).trans hq)
  have hm : m ∈ raiseSteps r a b := hq.subset List.mem_cons_self
  simp only [raiseSteps, List.mem_cons, List.not_mem_nil, or_false] at hm
  obtain rfl | rfl | rfl := hm <;> exact keepsCommand_of_quiet hp hc rfl hrest rfl rfl rfl rfl

/-- The rest of Info after its head (40_commands.md R89). -/
theorem keepsCommand_info {s : State} {m : MicroStep} {q : List MicroStep} (hp : PoolOk s)
    (hc : CommandOk s (m :: q)) (hq : m :: q <:+ infoSteps) : KeepsCommand s m q := by
  have hrest : QueueOk s q := .info q ((List.suffix_cons m q).trans hq)
  have hm : m ∈ infoSteps := hq.subset List.mem_cons_self
  simp only [infoSteps, List.mem_cons, List.not_mem_nil, or_false] at hm
  obtain rfl | rfl | rfl | rfl | rfl | rfl := hm
  case inr.inr.inr.inr.inr =>
    exact keepsCommand_of_quiet hp hc rfl hrest (microI5_of_shaped hp.shaped) rfl rfl rfl
  all_goals exact keepsCommand_of_quiet hp hc rfl hrest rfl rfl rfl rfl

/-- Reprogram writes of the pool its channel only. -/
theorem reprogram_pool (c u : Nat) (l : Byte) (ch : Channel) (v : U16) (s : State) :
    (reprogram c u l ch v s).cfg = s.cfg ∧ (reprogram c u l ch v s).units = s.units ∧
    (reprogram c u l ch v s).chans = (s.setChan c { ch with cmp := v, lvl := l }).chans := by
  unfold Machine.reprogram
  split <;> exact ⟨rfl, rfl, rfl⟩

/-- Every micro-step of a command in progress can be performed, and leaves the pool and the rest of the command as the
invariant asks (40_commands.md R86, 41_unit_and_pool.md R103 to R106). -/
theorem perform_keeps {s : State} {m : MicroStep} {q : List MicroStep} (hp : PoolOk s) (htable : s.cfg.TableOk)
    (hc : CommandOk s (m :: q)) : KeepsCommand s m q := by
  have ⟨hsettled, hqueue⟩ := hc
  cases hqueue with
  | answer op id => exact keepsCommand_of_quiet hp hc rfl .idle rfl rfl rfl rfl
  | error r a b _ hr hq => exact keepsCommand_error hp hc hr hq
  | info _ hq => exact keepsCommand_info hp hc hq
  | acquireLink c u l op id ch x hch ho hx hu hl =>
    obtain ⟨hen, -, -, hflag⟩ := hp.channels c ch hch
    have hie : ch.ie = false := by
      cases hi : ch.ie with
      | false => rfl
      | true => exact absurd ho (hen hi)
    refine ⟨_, microA1_eq_next.mpr ⟨ch, x, hch, hx, rfl⟩, hp.setLink hch hx (.inl ⟨ho, hu⟩) (.inr ⟨rfl, rfl⟩) ?_,
      ?_, ?_⟩
    · exact ⟨fun _ => by simp, fun h => by simp at h, hl.2, hflag⟩
    · exact State.OthersSettled.setUnit_busy (s := s.setChan c _) (hsettled.congr rfl) hx
    · exact .acquireCompare c u l op id _ ⟨State.chan?_setChan_same hch, rfl⟩ hie hl
  | acquireCompare c u l op id ch hb hi hl =>
    obtain ⟨v, hv⟩ := compareValue_isSome htable hl.1 hl.2
    obtain ⟨hen, hun, hlv, hflag⟩ := hp.channels c ch hb.1
    refine ⟨_, microA2_eq_next.mpr ⟨v, ch, hv, hb.1, rfl⟩, hp.setChan hb.1 rfl ⟨hen, hun, hlv, hflag⟩,
      hsettled.congr rfl, ?_⟩
    exact .acquirePin c u op id _ ⟨State.chan?_setChan_same hb.1, hb.2⟩ hi
  | acquirePin c u op id ch hb hi =>
    obtain ⟨x, hx, hu⟩ := hp.unit_of_bound hb
    refine ⟨_, updUnit_of_some hx, hp.setUnit hx rfl, hsettled.setUnit_busy hx, ?_⟩
    exact .acquireEnable c u op id ch _ hb hi (State.unit?_setUnit_same hx) rfl
  | acquireEnable c u op id ch x hb hi hx hpin =>
    obtain ⟨hen, hun, hlv, hflag⟩ := hp.channels c ch hb.1
    refine ⟨_, updChan_of_some hb.1, hp.setChan hb.1 rfl ?_, hsettled.congr rfl, ?_⟩
    · exact ⟨fun _ => by simp [hb.2], hun, hlv, fun _ _ => rfl⟩
    · exact .acquireState c u op id _ x ⟨State.chan?_setChan_same hb.1, hb.2⟩ hx hpin
  | acquireState c u op id ch x hb hx hpin =>
    obtain ⟨x', hx', hu⟩ := hp.unit_of_bound hb
    obtain rfl : x = x' := Option.some.inj (hx.symm.trans hx')
    refine ⟨_, updUnit_of_some hx, hp.setUnit hx rfl, hsettled.setUnit_settled hx ?_, .answer op id⟩
    simp [PowerUnit.Settled, hu, hpin]
  | releaseMask c u m op id ch hb hm =>
    obtain ⟨hen, hun, hlv, hflag⟩ := hp.channels c ch hb.1
    refine ⟨_, updChan_of_some hb.1, hp.setChan hb.1 rfl ?_, hsettled.congr rfl, ?_⟩
    · exact ⟨fun h => by simp at h, hun, hlv, fun hl => by simp [mfAfterRelease, hl]⟩
    · exact .releaseLevel c u m op id _ ⟨State.chan?_setChan_same hb.1, hb.2⟩ rfl hm
  | releaseLevel c u m op id ch hb hi hm =>
    obtain ⟨hen, hun, hlv, hflag⟩ := hp.channels c ch hb.1
    refine ⟨_, updChan_of_some hb.1, hp.setChan hb.1 rfl ?_, hsettled.congr rfl, ?_⟩
    · exact ⟨hen, fun _ => rfl, by simp, hflag⟩
    · exact .releaseLink c u m op id _ ⟨State.chan?_setChan_same hb.1, hb.2⟩ hi rfl hm
  | releaseLink c u m op id ch hb hi hl hm =>
    obtain ⟨x, hx, hu⟩ := hp.unit_of_bound hb
    obtain ⟨hen, hun, hlv, hflag⟩ := hp.channels c ch hb.1
    refine ⟨_, microL3_eq_next.mpr ⟨ch, x, hb.1, hx, rfl⟩,
      hp.setLink hb.1 hx (.inr ⟨hb.2, hu⟩) (.inl ⟨rfl, rfl⟩) ?_, ?_, ?_⟩
    · exact ⟨fun h => by simp [hi] at h, fun _ => hl, hlv, hflag⟩
    · have hbusy : opUnit [m, .resp (status .success op id)] = some u := by rcases hm with rfl | rfl <;> rfl
      rw [hbusy]
      exact State.OthersSettled.setUnit_busy (s := s.setChan c _) (hsettled.congr rfl) hx
    · exact .latch u m op id _ (State.unit?_setUnit_same (s := s.setChan c _) hx) rfl hm
  | latch u m op id x hx hu hm =>
    rcases hm with rfl | rfl
    · refine ⟨_, updUnit_of_some hx, hp.setUnit hx rfl, hsettled.setUnit_settled hx ?_, .answer op id⟩
      simp [PowerUnit.Settled, hu]
    · refine ⟨_, updUnit_of_some hx, hp.setUnit hx rfl, hsettled.setUnit_settled hx ?_, .answer op id⟩
      simp [PowerUnit.Settled, hu]
  | reprogram c u l op id ch hb hl =>
    obtain ⟨v, hv⟩ := compareValue_isSome htable hl.1 hl.2
    obtain ⟨hen, hun, hlv, hflag⟩ := hp.channels c ch hb.1
    obtain ⟨hcfg, hunits, hchans⟩ := reprogram_pool c u l ch v s
    have hset : PoolOk (s.setChan c { ch with cmp := v, lvl := l }) :=
      hp.setChan hb.1 rfl ⟨hen, fun h => by simp [hb.2] at h, hl.2, hflag⟩
    exact ⟨_, microP_eq_next.mpr ⟨v, ch, hv, hb.1, rfl⟩, hset.congr hcfg hunits hchans, hsettled.congr hunits,
      .answer op id⟩

end Sys2Proof.Machine
end

/-!
PROOFS. The invariant is kept by every step of every agent, holds after reset, and excludes every fault
(spec/10_state.md sections 2 and 7, 41_unit_and_pool.md sections 3 and 4, 60_exceptions.md section 5).
-/

section
namespace Sys2Proof.Machine

/-! ### The ring -/

/-- Taking an unread byte keeps the ring (20_memory.md R43). -/
theorem RingOk.popByte {s : State} (h : RingOk s) (hne : s.rd ≠ s.wr) : RingOk s.popByte := by
  obtain ⟨hrd, hwr, hwf, hrange, hwritten⟩ := h
  have hpos : 0 < s.unread := Nat.pos_of_ne_zero fun h0 => hne ((State.unread_eq_zero hrd hwr).mp h0)
  have hless := State.unread_popByte hrd hwr hpos
  refine ⟨Nat.mod_lt _ (by omega), hwr, hwf, hrange, fun k hk => ?_⟩
  have hcell : (ringNext s.cfg s.rd + k) % s.cfg.rxcap = (s.rd + (k + 1)) % s.cfg.rxcap := by
    rw [ringNext, Nat.mod_add_mod, Nat.add_assoc, Nat.add_comm 1 k]
  exact (congrArg (fun a => (s.rxbuf.read a).isSome = true) hcell).mpr (hwritten (k + 1) (by omega))

/-- With both cursors at 0 nothing is unread (R44). -/
theorem RingOk.resetCursors {s : State} (h : RingOk s) : RingOk s.resetCursors := by
  have hpos : 0 < s.cfg.rxcap := Nat.zero_lt_of_lt h.rdRange
  have hempty : s.resetCursors.unread = 0 := (State.unread_eq_zero hpos hpos).mpr rfl
  exact ⟨hpos, hpos, h.ramWf, h.ramRange, fun k hk => by omega⟩

/-- The next cell, for a cursor in range (R42, R43). -/
theorem ringNext_of_lt {c : Cfg} {a : Nat} (h : a < c.rxcap) :
    ringNext c a = if a + 1 = c.rxcap then 0 else a + 1 := by
  rw [ringNext]
  split
  case isTrue he => rw [he, Nat.mod_self]
  case isFalse hne => exact Nat.mod_eq_of_lt (by omega)

/-- A byte stored is one unread byte more, or, where the cursors meet, the ring is empty (R42, R45). -/
theorem State.unread_storeByte {s : State} {b : Byte} (hrd : s.rd < s.cfg.rxcap) (hwr : s.wr < s.cfg.rxcap) :
    (storeByte b s).unread = if ringNext s.cfg s.wr = s.rd then 0 else s.unread + 1 := by
  have hnext : ringNext s.cfg s.wr < s.cfg.rxcap := Nat.mod_lt _ (by omega)
  have hstored : (storeByte b s).unread =
      if s.rd ≤ ringNext s.cfg s.wr then ringNext s.cfg s.wr - s.rd else ringNext s.cfg s.wr + s.cfg.rxcap - s.rd :=
    State.unread_of_lt (s := storeByte b s) hrd hnext
  have hwrap := ringNext_of_lt hwr
  rw [hstored]
  by_cases hmeets : ringNext s.cfg s.wr = s.rd
  · rw [if_pos hmeets, if_pos hmeets.ge]
    omega
  · rw [if_neg hmeets, State.unread_of_lt hrd hwr]
    split at hwrap <;> split <;> split <;> omega

/-- The write cursor stands behind the unread bytes (R41). -/
theorem State.wr_eq_rd_add_unread {s : State} (hrd : s.rd < s.cfg.rxcap) (hwr : s.wr < s.cfg.rxcap) :
    (s.rd + s.unread) % s.cfg.rxcap = s.wr := by
  rw [State.unread_of_lt hrd hwr]
  split
  case isTrue hle => rw [Nat.add_sub_cancel' hle, Nat.mod_eq_of_lt hwr]
  case isFalse hlt =>
    rw [show s.rd + (s.wr + s.cfg.rxcap - s.rd) = s.wr + s.cfg.rxcap by omega, Nat.add_mod_right,
      Nat.mod_eq_of_lt hwr]

/-- A cell that has been written stays written. -/
theorem Memory.isSome_read_write {m : Memory} {a a' : Nat} {b : Byte} (h : (m.read a').isSome ∨ a' = a) :
    ((m.write a b).read a').isSome := by
  by_cases ha : a' = a
  · subst ha
    rw [Memory.read_write_same]
    rfl
  · rw [Memory.read_write_ne m b ha]
    exact h.resolve_right ha

/-- Storing a byte keeps the ring (R42, R45). -/
theorem RingOk.storeByte {s : State} (h : RingOk s) (b : Byte) : RingOk (storeByte b s) := by
  obtain ⟨hrd, hwr, hwf, hrange, hwritten⟩ := h
  refine ⟨hrd, Nat.mod_lt _ (by omega), Memory.write_wf _ _ hwf, fun a ha => ?_, fun k hk => ?_⟩
  · by_cases haw : a = s.wr
    · exact haw ▸ hwr
    · exact hrange a (by rwa [← Memory.read_write_ne s.rxbuf b haw])
  · rw [State.unread_storeByte hrd hwr] at hk
    split at hk
    case isTrue => omega
    case isFalse =>
      apply Memory.isSome_read_write
      rcases Nat.lt_succ_iff_lt_or_eq.mp hk with hlt | rfl
      · exact .inl (hwritten k hlt)
      · exact .inr (State.wr_eq_rd_add_unread hrd hwr)

/-! ### The foreground's micro-steps -/

/-- A command in progress: the handshake has been sent (70_reset_and_hazards.md R162). -/
theorem SequencerOk.started {s : State} (h : SequencerOk s) (hne : s.seq ≠ .sBoot) :
    s.gie = true ∧ handshake <+: s.tx := by
  have hgie := h.booted.mpr hne
  have hfirst := h.handshakeFirst
  rw [hgie, if_pos rfl] at hfirst
  exact ⟨hgie, hfirst⟩

/-- Behind the head of a queue the sequencer runs exactly where something is left (R86). -/
theorem seqAfter_ne_sRun {q : List MicroStep} : q = [] ↔ seqAfter q ≠ .sRun := by
  cases q <;> simp

/-- Behind the head of a queue the sequencer neither boots nor waits for an operand (R86). -/
theorem seqAfter_cases (q : List MicroStep) : seqAfter q = .sLead ∨ seqAfter q = .sRun := by
  cases q <;> simp

/-- A micro-step keeps the sequencer's part. -/
theorem SequencerOk.micro {s t : State} {m : MicroStep} {q : List MicroStep} (h : SequencerOk s)
    (hrun : s.seq = .sRun) (ht : perform m { s with mq := q, seq := seqAfter q } = .next t) : SequencerOk t := by
  obtain ⟨hgie, hfirst⟩ := h.started (by rw [hrun]; decide)
  obtain ⟨hframe, htx, -⟩ := perform_writes ht
  have hseq : t.seq = seqAfter q := (congrArg State.seq hframe :)
  have hmq : t.mq = q := (congrArg State.mq hframe :)
  have htgie : t.gie = true := ((congrArg State.gie hframe :) : t.gie = s.gie).trans hgie
  refine ⟨?_, ?_, ?_, ?_, ?_⟩
  · rw [hmq, hseq]
    exact seqAfter_ne_sRun
  · rw [hseq]
    intro he
    rcases seqAfter_cases q with hq | hq <;> exact absurd (hq.symm.trans he) (by decide)
  · rw [hseq]
    intro he
    rcases seqAfter_cases q with hq | hq <;> exact absurd (hq.symm.trans he) (by decide)
  · rw [hseq, htgie]
    rcases seqAfter_cases q with hq | hq <;> simp [hq]
  · rw [htgie, if_pos rfl]
    exact hfirst.trans htx

/-- A micro-step keeps the ring. -/
theorem RingOk.micro {s t : State} {m : MicroStep} {q : List MicroStep} (h : RingOk s)
    (ht : perform m { s with mq := q, seq := seqAfter q } = .next t) : RingOk t := by
  have hframe := (perform_writes ht).frame
  have hcfg : t.cfg = s.cfg := (congrArg State.cfg hframe :)
  have hbuf : t.rxbuf = s.rxbuf := (congrArg State.rxbuf hframe :)
  obtain ⟨hrd, hwr⟩ | ⟨-, hrd, hwr⟩ := perform_cursors ht
  · exact h.congr hcfg hrd hwr hbuf
  · exact h.resetCursors.congr hcfg hrd hwr hbuf

/-- In S_RUN the foreground performs a micro-step and keeps the invariant (40_commands.md R86). -/
theorem microStep_keeps_inv {s : State} (h : Inv s) (hrun : s.seq = .sRun) :
    ∃ t, fgStep s = .next t ∧ Inv t := by
  obtain ⟨hcfg, hpool, hcommand, hsequencer, hring, htorn⟩ := inv_iff.mp h
  cases hq : s.mq with
  | nil => exact absurd hrun (hsequencer.running.mp hq)
  | cons m q =>
    rw [hq] at hcommand
    obtain ⟨t, ht, hpool', hcommand'⟩ := perform_keeps (s := { s with mq := q, seq := seqAfter q })
      (hpool.congr rfl rfl rfl) h.tableOk (hcommand.congr rfl rfl)
    have hframe := (perform_writes ht).frame
    refine ⟨t, ((fgStep_run hrun).trans (microStep_cons hq)).trans ht, inv_iff.mpr ⟨?_, hpool', ?_, ?_, ?_, ?_⟩⟩
    · exact ((congrArg State.cfg hframe :) : t.cfg = s.cfg) ▸ hcfg
    · exact ((congrArg State.mq hframe :) : t.mq = q) ▸ hcommand'
    · exact hsequencer.micro hrun ht
    · exact hring.micro ht
    · exact ((congrArg State.fTornLink hframe :) : t.fTornLink = s.fTornLink).trans htorn

/-! ### The queue of a new command -/

/-- The scan's answer is a channel without an owner (41_unit_and_pool.md R102). -/
theorem State.chan?_of_firstFree {s : State} {c : Nat} (h : s.firstFree = some c) :
    ∃ ch, s.chan? c = some ch ∧ ch.owner = none := by
  obtain ⟨hlt, hfree, -⟩ := List.findIdx?_eq_some_iff_getElem.mp h
  exact ⟨s.chans[c], List.getElem?_eq_getElem hlt, Option.isNone_iff_eq_none.mp hfree⟩

/-- The queue of a request that latches the pin of a unit (R102). -/
theorem queueOk_latch {s : State} (hp : PoolOk s) {u : Nat} {x : PowerUnit} (hx : s.unit? u = some x) {m : MicroStep}
    (hm : latchStep u m) (op id : Byte) :
    QueueOk s (s.releaseIfBound u ++ [m] ++ [.resp (status .success op id)]) := by
  unfold State.releaseIfBound
  cases hu : s.uchOf u with
  | none =>
    have hfree : x.uch = none := by rwa [State.uchOf, hx, Option.bind_some] at hu
    exact .latch u m op id x hx hfree hm
  | some c =>
    obtain ⟨ch, hb⟩ := hp.chan_of_uchOf hu
    exact .releaseMask c u m op id ch hb hm

/-- The steps of a level request (R102): release and latch, reprogram, acquire, or none with an error. -/
theorem setLevelSteps_cases (s : State) (u : Nat) (l : Byte) :
    (∃ m, latchStep u m ∧ setLevelSteps s u l = (s.releaseIfBound u ++ [m], .success)) ∨
    (dimLevel l ∧ ∃ c, s.uchOf u = some c ∧ setLevelSteps s u l = ([.p c u l], .success)) ∨
    (dimLevel l ∧ s.uchOf u = none ∧
      ∃ c, s.firstFree = some c ∧ setLevelSteps s u l = (acquireSteps c u l, .success)) ∨
    setLevelSteps s u l = ([], .noDimmerAvailable) := by
  by_cases hhigh : 100 ≤ l.toNat
  · exact .inl ⟨_, .inl rfl, setLevelSteps_high hhigh⟩
  by_cases hlow : l.toNat = 0
  · exact .inl ⟨_, .inr rfl, setLevelSteps_low hlow⟩
  have hdim : dimLevel l := ⟨by omega, by omega⟩
  cases hu : s.uchOf u with
  | some c => exact .inr (.inl ⟨hdim, c, rfl, setLevelSteps_bound hdim.1 hdim.2 hu⟩)
  | none =>
    cases hf : s.firstFree with
    | none => exact .inr (.inr (.inr (setLevelSteps_exhausted hdim.1 hdim.2 hu hf)))
    | some c => exact .inr (.inr (.inl ⟨hdim, rfl, c, rfl, setLevelSteps_free hdim.1 hdim.2 hu hf⟩))

/-- The queue of every level request is the start of one of the spec's lists, with the registers it asks for
(40_commands.md R90, R93, 41_unit_and_pool.md R102). -/
theorem execSteps_queueOk {s : State} (hp : PoolOk s) (op id l : Byte) : QueueOk s (execSteps s op id l) := by
  by_cases hid : id.toNat = 0 ∨ s.cfg.nUnit < id.toNat
  · rw [execSteps_invalid hid]
    exact .error .invalidId op id _ (by decide) List.suffix_rfl
  have h1 : 1 ≤ id.toNat := by omega
  have h2 : id.toNat ≤ s.cfg.nUnit := by omega
  obtain ⟨x, hx⟩ := State.unit?_of_valid h1 (hp.unitCount.symm ▸ h2)
  rw [execSteps_valid h1 h2]
  obtain ⟨m, hm, hsteps⟩ | ⟨hdim, c, hu, hsteps⟩ | ⟨hdim, hu, c, hf, hsteps⟩ | hsteps :=
    setLevelSteps_cases s id.toNat l
  · rw [hsteps]
    exact queueOk_latch hp hx hm op id
  · obtain ⟨ch, hb⟩ := hp.chan_of_uchOf hu
    rw [hsteps]
    exact .reprogram c id.toNat l op id ch hb hdim
  · have hfree : x.uch = none := by rwa [State.uchOf, hx, Option.bind_some] at hu
    obtain ⟨ch, hch, ho⟩ := State.chan?_of_firstFree hf
    rw [hsteps]
    exact .acquireLink c id.toNat l op id ch x hch ho hx hfree hdim
  · rw [hsteps]
    exact .error .noDimmerAvailable op id _ (by decide) List.suffix_rfl

/-- A level request always has steps: at least its answer. -/
theorem execSteps_ne_nil (s : State) (op id l : Byte) : execSteps s op id l ≠ [] := by
  unfold execSteps respondSteps
  split
  · simp [raiseSteps]
  · split <;> simp [raiseSteps]

/-! ### The foreground's fetch -/

/-- A byte taken keeps the invariant, where the sequencer's registers it writes fit each other (R82 to R85). -/
theorem Inv.fetched {s t : State} (h : Inv s) (hw : s.waits) (hne : s.rd ≠ s.wr)
    (ht : t = { s with rd := ringNext s.cfg s.rd, rOp := t.rOp, rId := t.rId, mq := t.mq, seq := t.seq })
    (hboot : t.seq ≠ .sBoot) (hrunning : t.mq = [] ↔ t.seq ≠ .sRun) (hqueue : QueueOk s t.mq)
    (hid : t.seq = .sId → t.rOp = Config.opOn ∨ t.rOp = s.cfg.opOff ∨ t.rOp = Config.opLevel)
    (hlvl : t.seq = .sLvl → t.rOp = Config.opLevel) : Inv t := by
  obtain ⟨hcfg, hpool, hcommand, hsequencer, hring, htorn⟩ := inv_iff.mp h
  obtain ⟨hsboot, hsrun⟩ := State.seq_of_waits hw
  obtain ⟨hgie, hfirst⟩ := hsequencer.started hsboot
  have hidle : s.mq = [] := hsequencer.running.mpr hsrun
  have hsettled : s.OthersSettled none := by
    have := hcommand.settled
    rwa [hidle] at this
  have htcfg : t.cfg = s.cfg := (congrArg State.cfg ht :)
  have hunits : t.units = s.units := (congrArg State.units ht :)
  have hchans : t.chans = s.chans := (congrArg State.chans ht :)
  have htgie : t.gie = true := ((congrArg State.gie ht :) : t.gie = s.gie).trans hgie
  have htx : t.tx = s.tx := (congrArg State.tx ht :)
  refine inv_iff.mpr ⟨htcfg ▸ hcfg, hpool.congr htcfg hunits hchans,
    ⟨(hsettled.weaken _).congr hunits, hqueue.congr hunits hchans⟩, ⟨hrunning, htcfg.symm ▸ hid, hlvl, ?_, ?_⟩,
    (hring.popByte hne).congr htcfg (congrArg State.rd ht :) (congrArg State.wr ht :) (congrArg State.rxbuf ht :),
    ((congrArg State.fTornLink ht :) : t.fTornLink = s.fTornLink).trans htorn⟩
  · rw [htgie]
    simpa using hboot
  · rw [htgie, htx, if_pos rfl]
    exact hfirst

/-- The byte that completes a command keeps the invariant (R83 to R85). -/
theorem exec_keeps_inv {s : State} (h : Inv s) (hw : s.waits) (hne : s.rd ≠ s.wr) (i : Instr) :
    ∃ t, exec i s = .next t ∧ Inv t := by
  have hpool := h.pool
  have hidle : s.mq = [] := h.running.mpr (State.seq_of_waits hw).2
  have run_case {t : State} (ht : exec i s = .next t) (hseq : t.seq = .sRun) (hmq : t.mq ≠ [])
      (hq : QueueOk s t.mq) : ∃ t, exec i s = .next t ∧ Inv t :=
    ⟨t, ht, h.fetched hw hne (exec_writes ht) (by simp [hseq]) (by simp [hseq, hmq]) hq (by simp [hseq])
      (by simp [hseq])⟩
  cases i with
  | nothing =>
    refine ⟨_, exec_nothing s, h.fetched hw hne (exec_writes (exec_nothing s)) (by simp) ?_ ?_ (by simp) (by simp)⟩
    · simp [hidle]
    · simp [hidle, QueueOk.idle]
  | info => exact run_case rfl rfl (by simp [infoSteps]) (.info _ List.suffix_rfl)
  | on u => exact run_case rfl rfl (execSteps_ne_nil _ _ _ _) (execSteps_queueOk hpool ..)
  | off u => exact run_case rfl rfl (execSteps_ne_nil _ _ _ _) (execSteps_queueOk hpool ..)
  | level u l => exact run_case rfl rfl (execSteps_ne_nil _ _ _ _) (execSteps_queueOk hpool ..)
  | badop op =>
    exact run_case rfl rfl (by simp [raiseSteps]) (.error .invalidCommand op 0 _ (by decide) List.suffix_rfl)
  | badstart b =>
    exact run_case rfl rfl (by simp [raiseSteps]) (.error .invalidStart b 0 _ (by decide) List.suffix_rfl)

/-- Every byte taken in a state of the invariant is latched or completes a command, and keeps the invariant (R82 to
R85). -/
theorem fetchByte_keeps_inv {s : State} (h : Inv s) (hw : s.waits) (hne : s.rd ≠ s.wr) (b : Byte) :
    ∃ t, fetchByte b s = .next t ∧ Inv t := by
  have hops := h.opcodesOk
  have hidle : s.mq = [] := h.running.mpr (State.seq_of_waits hw).2
  have exec_case {i : Instr} (hf : fetchByte b s = exec i s) : ∃ t, fetchByte b s = .next t ∧ Inv t :=
    hf ▸ exec_keeps_inv h hw hne i
  have latch_case {t : State} (ht : fetchByte b s = .next t) (hmq : t.mq = s.mq) (hboot : t.seq ≠ .sBoot)
      (hrun : t.seq ≠ .sRun)
      (hid : t.seq = .sId → t.rOp = Config.opOn ∨ t.rOp = s.cfg.opOff ∨ t.rOp = Config.opLevel)
      (hlvl : t.seq = .sLvl → t.rOp = Config.opLevel) : ∃ t, fetchByte b s = .next t ∧ Inv t :=
    ⟨t, ht, h.fetched hw hne (fetchByte_writes ht) hboot (by simp [hmq, hidle, hrun])
      (by rw [hmq, hidle]; exact .idle) hid hlvl⟩
  have hseq : s.seq = .sLead ∨ s.seq = .sOpc ∨ s.seq = .sId ∨ s.seq = .sLvl := hw
  rcases hseq with hq | hq | hq | hq
  case inl =>
    by_cases hb : b = Config.esc
    · subst hb
      exact latch_case (fetchByte_esc_of_sLead hq) rfl (by simp) (by simp) (by simp) (by simp)
    · exact exec_case (fetchByte_badstart_of_sLead hq hb)
  case inr.inl =>
    obtain ⟨i, hd⟩ | hd := decodeOpcode_single s.cfg b
    · exact exec_case (fetchByte_of_sOpc hq hd)
    · exact latch_case (fetchByte_payload_of_sOpc hq hd) rfl (by simp) (by simp)
        (fun _ => decodeOpcode_single_cases hd) (by simp)
  case inr.inr.inl =>
    obtain hop | hop | hop := h.latchId hq
    · exact exec_case (fetchByte_on_of_sId hops hq hop b)
    · exact exec_case (fetchByte_off_of_sId hops hq hop b)
    · exact latch_case (fetchByte_level_of_sId hops hq hop b) rfl (by simp) (by simp) (by simp) (fun _ => hop)
  case inr.inr.inr => exact exec_case (fetchByte_level_of_sLvl hops hq (h.latchLvl hq) b)

/-- `Boot` keeps the invariant: the handshake is the first thing sent (70_reset_and_hazards.md R162). -/
theorem bootStep_keeps_inv {s : State} (h : Inv s) (hboot : s.seq = .sBoot) : ∃ t, fgStep s = .next t ∧ Inv t := by
  obtain ⟨hcfg, hpool, hcommand, hsequencer, hring, htorn⟩ := inv_iff.mp h
  have hidle : s.mq = [] := hsequencer.running.mpr (by rw [hboot]; decide)
  have hgie : s.gie = false := Bool.eq_false_iff.mpr fun hg => hsequencer.booted.mp hg hboot
  have htx : s.tx = [] := by
    have hfirst := hsequencer.handshakeFirst
    rwa [hgie, if_neg Bool.false_ne_true] at hfirst
  refine ⟨_, fgStep_boot hboot, inv_iff.mpr ⟨hcfg, hpool.congr rfl rfl rfl, hcommand.congr rfl rfl,
    ⟨by simp [hidle], by simp, by simp, by simp, ?_⟩, hring.congr rfl rfl rfl rfl, htorn⟩⟩
  simp [htx]

/-- Every step of the foreground can be taken and keeps the invariant (40_commands.md R80). -/
theorem fgStep_keeps_inv {s : State} (h : Inv s) : ∃ t, fgStep s = .next t ∧ Inv t := by
  by_cases hboot : s.seq = .sBoot
  · exact bootStep_keeps_inv h hboot
  by_cases hrun : s.seq = .sRun
  · exact microStep_keeps_inv h hrun
  have hw := State.waits_of_ne hboot hrun
  by_cases he : s.rd = s.wr
  · exact ⟨s, fgStep_hold hw he, h⟩
  have hpos : 0 < s.unread := Nat.pos_of_ne_zero fun h0 => he ((State.unread_eq_zero h.rdRange h.wrRange).mp h0)
  have hread := h.unreadWritten 0 hpos
  rw [Nat.add_zero, Nat.mod_eq_of_lt h.rdRange] at hread
  obtain ⟨b, hb⟩ := Option.isSome_iff_exists.mp hread
  rw [fgStep_eq_fetchByte hw he h.rdRange hb]
  exact fetchByte_keeps_inv h hw he b

/-! ### The other agents -/

/-- A list of channels with the same bindings has, at each place, a channel with the same binding. -/
theorem chan?_of_bindings {s t : State} (hb : t.chans.map Channel.binding = s.chans.map Channel.binding) {c : Nat}
    {ch : Channel} (hc : s.chan? c = some ch) : ∃ ch', t.chan? c = some ch' ∧ ch'.binding = ch.binding := by
  have hmap : (t.chan? c).map Channel.binding = some ch.binding := by
    have hget := congrArg (fun l => l[c]?) hb
    simp only [List.getElem?_map] at hget
    exact hget.trans (congrArg (Option.map Channel.binding) hc)
  exact Option.map_eq_some_iff.mp hmap

/-- The pool under the same bindings: only the flags have to fit the enables. -/
theorem PoolOk.of_bindings {s t : State} (h : PoolOk s) (hcfg : t.cfg = s.cfg) (hunits : t.units = s.units)
    (hb : t.chans.map Channel.binding = s.chans.map Channel.binding)
    (hflag : s.cfg.latchDisabled = false → ∀ c ch, t.chan? c = some ch → ch.mf = true → ch.ie = true) :
    PoolOk t where
  unitCount := by rw [hunits, hcfg, h.unitCount]
  chanCount := by
    have hlen := congrArg List.length hb
    rw [List.length_map, List.length_map] at hlen
    rw [hlen, hcfg, h.chanCount]
  link c u := by
    have howner : t.ownerOf c = s.ownerOf c := by
      have hget := congrArg (fun l => (l[c]?).bind (·.1)) hb
      simp only [List.getElem?_map, Option.bind_map] at hget
      exact hget
    rw [howner, State.uchOf_congr hunits, h.link]
  channels c ch hc := by
    obtain ⟨ch', hc', hbind⟩ := chan?_of_bindings hb.symm hc
    obtain ⟨hen, hun, hlv, -⟩ := h.channels c ch' hc'
    simp only [Channel.binding, Prod.mk.injEq] at hbind
    obtain ⟨ho, hl, -, hi⟩ := hbind
    rw [ho, hi] at hen
    rw [ho, hl] at hun
    rw [hl] at hlv
    exact ⟨hen, hun, hlv, fun hlatch => hflag (hcfg ▸ hlatch) c ch hc⟩

/-- A step of an agent other than the foreground and reset keeps the invariant, where it keeps the ring, leaves no link
torn and lets the flags fit the enables. -/
theorem Inv.of_agent {s t : State} (h : Inv s) (hwrites : AgentWrites s t) (hring : RingOk t)
    (htorn : t.fTornLink = false)
    (hflag : s.cfg.latchDisabled = false → ∀ c ch, t.chan? c = some ch → ch.mf = true → ch.ie = true) : Inv t := by
  obtain ⟨hcfg, hpool, hcommand, hsequencer, -, -⟩ := inv_iff.mp h
  obtain ⟨hframe, hbindings, -⟩ := hwrites
  have kept {α : Type} (f : State → α) := congrArg f hframe
  have htcfg : t.cfg = s.cfg := kept State.cfg
  have hunits : t.units = s.units := kept State.units
  have hmq : t.mq = s.mq := kept State.mq
  refine inv_iff.mpr ⟨htcfg ▸ hcfg, hpool.of_bindings htcfg hunits hbindings hflag, ?_, ?_, hring, htorn⟩
  · rw [hmq]
    exact ⟨hcommand.settled.congr hunits, hcommand.queue.mono hunits fun c ch hc => chan?_of_bindings hbindings hc⟩
  · exact hsequencer.congr htcfg (kept State.seq) (kept State.rOp) hmq (kept State.gie) (kept State.tx)

/-- Where no flag is new and the bindings stay, the flags still fit the enables (43_phase_timer.md R131). -/
theorem Inv.flags_of_noNewFlag {s t : State} (h : Inv s)
    (hb : t.chans.map Channel.binding = s.chans.map Channel.binding) (hflags : NoNewFlag s t)
    (hlatch : s.cfg.latchDisabled = false) (c : Nat) (ch : Channel) (hc : t.chan? c = some ch) (hmf : ch.mf = true) :
    ch.ie = true := by
  obtain ⟨ch₀, hc₀, hmf₀⟩ := hflags c ch hc hmf
  obtain ⟨ch', hc', hbind⟩ := chan?_of_bindings hb.symm hc
  obtain rfl : ch₀ = ch' := Option.some.inj (hc₀.symm.trans hc')
  simp only [Channel.binding, Prod.mk.injEq] at hbind
  obtain ⟨-, -, -, hi⟩ := hbind
  exact hi ▸ h.flagEnabled hlatch c ch₀ hc₀ hmf₀

/-- The flags fit the enables after a tick: a match of a disabled channel is recorded only where matches are latched
(R131). -/
theorem Inv.flags_of_phTick {s t : State} {tm : Timer} (h : Inv s) (ht : phTick tm s = .next t)
    (hlatch : s.cfg.latchDisabled = false) (c : Nat) (ch : Channel) (hc : t.chan? c = some ch) (hmf : ch.mf = true) :
    ch.ie = true := by
  rw [chan?_phTick ht] at hc
  obtain ⟨ch₀, hc₀, rfl⟩ := Option.map_eq_some_iff.mp hc
  have hflag := h.flagEnabled hlatch c ch₀ hc₀
  split at hmf
  case isFalse hother => simpa [hother] using hflag hmf
  case isTrue hmine =>
    rw [if_pos hmine]
    rcases Bool.or_eq_true_iff.mp hmf with hold | hmatch
    · exact hflag hold
    · have hen := (Bool.and_eq_true_iff.mp hmatch).2
      rw [hlatch, Bool.or_false] at hen
      exact hen

/-- The reset state of a well-formed configuration has the invariant, under every schedule (70_reset_and_hazards.md
R160). -/
theorem inv_resetWith {c : Cfg} (hc : c.WF) (l : List Move) : Inv { State.resetWith c with sched := l } := by
  have hchan {d : Nat} {ch : Channel} (h : (State.resetWith c).chan? d = some ch) : ch = Channel.reset :=
    List.eq_of_mem_replicate (List.mem_of_getElem? h)
  have hunit {u : Nat} {x : PowerUnit} (h : (State.resetWith c).unit? u = some x) : x = PowerUnit.reset :=
    List.eq_of_mem_replicate (List.mem_of_getElem? (State.units_getElem?_of_unit? h))
  have hchecked : Checked (State.resetWith c) := by
    refine ⟨fun d _ u hu => ?_, fun u _ d hd => ?_, fun ch hch => ?_, fun u _ _ x hx => ?_⟩
    · obtain ⟨ch, hch, ho⟩ := Option.bind_eq_some_iff.mp (Option.mem_toList.mp hu)
      rw [hchan hch] at ho
      cases ho
    · obtain ⟨x, hx, hd⟩ := Option.bind_eq_some_iff.mp (Option.mem_toList.mp hd)
      rw [hunit hx] at hd
      cases hd
    · rw [List.eq_of_mem_replicate hch]
      decide
    · rw [hunit (Option.mem_toList.mp hx)]
      decide
  have hinv : Inv (State.resetWith c) :=
    inv_of_checked hchecked hc List.length_replicate List.length_replicate .idle (by simp [State.resetWith])
      (by simp [State.resetWith]) (by simp [State.resetWith]) (by simp [State.resetWith]) rfl rfl rfl rfl rfl
  exact hinv.withSched l

/-- Settles O43: the reset state passes the finite checks on units and channels, and its ring is empty. -/
theorem resetStateHasTheInvariant : Obligations.ResetStateHasTheInvariant :=
  ⟨fun _ l hc => inv_resetWith hc l, inv_resetWith resetCfg_WF []⟩

/-! ### Every step of every agent -/

/-- A move from a state of the invariant either can be taken and keeps it, or is refused as no step of the block
(log 2). -/
theorem move_keeps_inv {s : State} (h : Inv s) (m : Move) :
    (∃ t, move m s = .next t ∧ Inv t) ∨ ∃ r, move m s = .refused r := by
  have hring := h.ring
  have quiet {t : State} (hw : AgentWrites s t) (hchans : t.chans = s.chans) (hr : RingOk t)
      (htorn : t.fTornLink = s.fTornLink) : Inv t :=
    h.of_agent hw hr (htorn.trans h.untorn) (h.flags_of_noNewFlag hw.bindings (.of_chans hchans))
  cases m with
  | fg => exact .inl (fgStep_keeps_inv h)
  | zcIrq =>
    by_cases hen : s.gie = true ∧ s.zcPend = true
    · left
      cases hpol : s.zcPol with
      | falling =>
        have ht : zcIrq s = .next (zcFalling s) := zcIrq_eq_next.mpr ⟨hen.1, hen.2, .inl ⟨hpol, rfl⟩⟩
        obtain ⟨hw, hchans⟩ := zcIrq_writes ht
        exact ⟨_, ht, quiet hw hchans (hring.congr rfl rfl rfl rfl) rfl⟩
      | rising =>
        have ht : zcIrq s = .next (zcRising s) := zcIrq_eq_next.mpr ⟨hen.1, hen.2, .inr ⟨hpol, rfl⟩⟩
        obtain ⟨hw, hchans⟩ := zcIrq_writes ht
        exact ⟨_, ht, quiet hw hchans (hring.congr rfl rfl rfl rfl) rfl⟩
    · rw [not_and_or, Bool.not_eq_true, Bool.not_eq_true] at hen
      exact .inr ⟨_, zcIrq_disabled hen⟩
  | fireIrq c =>
    cases hf : fireIrq c s with
    | refused r => exact .inr ⟨r, hf⟩
    | fault e =>
      unfold fireIrq at hf
      split at hf
      · split at hf <;> cases hf
      · cases hf
    | next t =>
      obtain ⟨hw, hflags⟩ := fireIrq_writes hf
      obtain ⟨ch, hc, -, hie, -, ht⟩ := fireIrq_eq_next.mp hf
      obtain ⟨u, ho⟩ := Option.ne_none_iff_exists'.mp (h.enabledOwned c ch hc hie)
      rw [fireChannel_owned ho] at ht
      subst ht
      exact .inl ⟨_, hf, h.of_agent hw (hring.congr rfl rfl rfl rfl) h.untorn (h.flags_of_noNewFlag hw.bindings hflags)⟩
  | capTick =>
    obtain ⟨hw, hchans⟩ := capTick_writes (s := s) rfl
    exact .inl ⟨_, rfl, quiet hw hchans (hring.congr rfl rfl rfl rfl) rfl⟩
  | phTick tm =>
    have hw := phTick_writes (tm := tm) (s := s) rfl
    refine .inl ⟨_, rfl, h.of_agent hw (hring.congr ?_ ?_ ?_ ?_) ?_ (h.flags_of_phTick (tm := tm) rfl)⟩
    · exact State.setPcnt_cfg ..
    · exact State.setPcnt_rd ..
    · exact State.setPcnt_wr ..
    · exact State.setPcnt_rxbuf ..
    · exact (State.setPcnt_fTornLink ..).trans h.untorn
  | zcEdge =>
    obtain ⟨hw, hchans⟩ := zcEdge_writes (s := s) rfl
    exact .inl ⟨_, rfl, quiet hw hchans (hring.congr rfl rfl rfl rfl) rfl⟩
  | rxByte b =>
    cases hg : s.gie with
    | false => exact .inr ⟨.rxWhileDisabled, by simp [move, rxByte, rxEnabled, hg]⟩
    | true =>
      have ht : rxByte b s = .next (storeByte b s) := rxByte_eq_next.mpr ⟨hg, h.wrRange, rfl⟩
      obtain ⟨hw, hchans⟩ := rxByte_writes ht
      exact .inl ⟨_, ht, quiet hw hchans (hring.storeByte b) rfl⟩
  | reset => exact .inl ⟨_, rfl, inv_resetWith h.cfgWF s.sched⟩

/-- A step from a state of the invariant is one of its moves. -/
theorem step_keeps_inv {s : State} (h : Inv s) : (∃ t, step s = .next t ∧ Inv t) ∨ ∃ r, step s = .refused r := by
  rw [step_eq_move]
  exact move_keeps_inv (h.withSched _) _

/-- Settles O42: each agent keeps the parts of the invariant that it writes (`move_keeps_inv`). -/
theorem everyStepKeepsTheInvariant : Obligations.EveryStepKeepsTheInvariant := by
  intro s t h ht
  obtain ⟨t', ht', hinv⟩ | ⟨r, hr⟩ := step_keeps_inv h
  · cases ht.symm.trans ht'
    exact hinv
  · cases ht.symm.trans hr

/-- Settles O44: under the invariant every move can be taken or is refused (`move_keeps_inv`). -/
theorem invariantExcludesEveryFault : Obligations.InvariantExcludesEveryFault := by
  intro s f h hf
  obtain ⟨t', ht', -⟩ | ⟨r, hr⟩ := step_keeps_inv h
  · cases hf.symm.trans ht'
  · cases hf.symm.trans hr

/-- A run that starts with a refused step is refused. -/
theorem run_of_refused {M : Host.Core} {k : Nat} {s : M.State} {r : M.Refusal} (h : M.step s = .refused r) :
    M.run (k + 1) s = .refused r := by
  simp only [Host.Core.run, h]

/-- A run from a state of the invariant does not fault, and ends in a state of the invariant. -/
theorem run_keeps_inv {s : State} (h : Inv s) (k : Nat) :
    (∀ f, Host.Core.run Sys2Proof.core k s ≠ .fault f) ∧ ∀ t, RunsTo k s t → Inv t := by
  induction k generalizing s with
  | zero =>
    refine ⟨fun f hf => (nomatch hf), fun t ht => ?_⟩
    rw [runsTo_zero] at ht
    exact ht ▸ h
  | succ k ih =>
    obtain ⟨s', hs, hinv⟩ | ⟨r, hr⟩ := step_keeps_inv h
    · have hrest := ih hinv
      rw [← run_of_next (M := Sys2Proof.core) hs] at hrest
      refine ⟨hrest.1, fun t ht => hrest.2 t ?_⟩
      exact (runsTo_succ hs).mp ht
    · have hstop := run_of_refused (M := Sys2Proof.core) (k := k) hr
      exact ⟨fun f hf => (nomatch hstop.symm.trans hf), fun t ht => (nomatch hstop.symm.trans ht)⟩

/-- Settles O45: the reset state has the invariant, every step keeps it, and it says that no link is torn. -/
theorem noRunFromResetFaultsOrTearsALink : Obligations.NoRunFromResetFaultsOrTearsALink := by
  intro c l k hc
  obtain ⟨hfault, hinv⟩ := run_keeps_inv (inv_resetWith hc l) k
  exact ⟨hfault, fun t ht => (hinv t ht).untorn⟩

/-! ### What the invariant gives -/

/-- The channels that units are bound to, in the order of the units. -/
def State.boundChannels (s : State) : List Nat := s.units.filterMap (·.uch)

/-- There is one bound channel for each bound unit. -/
theorem State.length_boundChannels (s : State) :
    s.boundChannels.length = (s.units.filter fun x => x.uch.isSome).length := by
  unfold State.boundChannels
  rw [List.length_filterMap_eq_countP, List.countP_eq_length_filter]

/-- No two units are bound to one channel: its owner is one unit (10_state.md R19). -/
theorem Inv.boundChannels_nodup {s : State} (h : Inv s) : s.boundChannels.Nodup := by
  have owner_of {i c : Nat} (hi : i < s.units.length) (hc : s.units[i].uch = some c) : s.ownerOf c = some (i + 1) := by
    refine (h.link c (i + 1)).mpr ?_
    have hunit : s.unit? (i + 1) = some s.units[i] := List.getElem?_eq_getElem hi
    rw [State.uchOf, hunit, Option.bind_some, hc]
  refine List.pairwise_filterMap.mpr (List.pairwise_iff_getElem.mpr fun i j hi hj hij c hc d hd he => ?_)
  have hboth := (owner_of hi hc).symm.trans ((congrArg s.ownerOf he).trans (owner_of hj hd))
  simp only [Option.some.injEq] at hboth
  omega

/-- Every channel that a unit is bound to exists (R12). -/
theorem Inv.boundChannels_subset {s : State} (h : Inv s) : s.boundChannels ⊆ List.range s.cfg.nChan := by
  intro c hc
  obtain ⟨x, hx, hu⟩ := List.mem_filterMap.mp hc
  obtain ⟨i, hi⟩ := List.mem_iff_getElem?.mp hx
  have hunit : s.unit? (i + 1) = some x := hi
  have huch : s.uchOf (i + 1) = some c := by rw [State.uchOf, hunit, Option.bind_some, hu]
  obtain ⟨-, -, hbound⟩ := h.pool.shaped
  exact List.mem_range.mpr (hbound _ _ huch)

/-- Settles O26: the bound units' channels are distinct channels of the block. -/
theorem boundUnitsNeverExceedTheChannels : Obligations.BoundUnitsNeverExceedTheChannels := by
  intro s h
  have hle := (List.subperm_of_subset h.boundChannels_nodup h.boundChannels_subset).length_le
  rwa [State.length_boundChannels, List.length_range] at hle

/-- The next micro-step changes the binding of channel `c` (20_memory.md section 6); A3 names the unit, and its channel
is the one of the A4 behind it. -/
def BindingChanges (c : Nat) : List MicroStep → Prop
  | .a1 c' _ _ :: _ => c' = c
  | .a2 c' _ :: _ => c' = c
  | .a3 _ :: .a4 c' :: _ => c' = c
  | .a4 c' :: _ => c' = c
  | .l2 c' :: _ => c' = c
  | .l3 c' _ :: _ => c' = c
  | _ => False

/-- Before a micro-step that changes its binding, a channel has no owner yet or is masked (41_unit_and_pool.md R104,
R105). -/
theorem QueueOk.masked {s : State} {c : Nat} {q : List MicroStep} (h : QueueOk s q) (hc : BindingChanges c q) :
    ∃ ch, s.chan? c = some ch ∧ (ch.owner = none ∨ ch.ie = false) := by
  cases h with
  | idle | answer | acquireState | releaseMask | reprogram => exact hc.elim
  | error r a b q _ hq =>
    simp only [raiseSteps, List.suffix_cons_iff, List.suffix_nil] at hq
    obtain rfl | rfl | rfl | rfl := hq <;> exact hc.elim
  | info q hq =>
    simp only [infoSteps, List.suffix_cons_iff, List.suffix_nil] at hq
    obtain rfl | rfl | rfl | rfl | rfl | rfl | rfl := hq <;> exact hc.elim
  | latch u m op id x _ _ hm => rcases hm with rfl | rfl <;> exact hc.elim
  | acquireLink c' u l op id ch x hch ho =>
    obtain rfl : c' = c := hc
    exact ⟨ch, hch, .inl ho⟩
  | acquireCompare c' u l op id ch hb hi =>
    obtain rfl : c' = c := hc
    exact ⟨ch, hb.1, .inr hi⟩
  | acquirePin c' u op id ch hb hi =>
    obtain rfl : c' = c := hc
    exact ⟨ch, hb.1, .inr hi⟩
  | acquireEnable c' u op id ch x hb hi =>
    obtain rfl : c' = c := hc
    exact ⟨ch, hb.1, .inr hi⟩
  | releaseLevel c' u m op id ch hb hi =>
    obtain rfl : c' = c := hc
    exact ⟨ch, hb.1, .inr hi⟩
  | releaseLink c' u m op id ch hb hi =>
    obtain rfl : c' = c := hc
    exact ⟨ch, hb.1, .inr hi⟩

/-- Settles O27: where the binding of a channel changes it has no owner yet or is masked (`QueueOk.masked`), and a
channel without an owner is not enabled. -/
theorem firingIsMaskedWhileTheBindingChanges : Obligations.FiringIsMaskedWhileTheBindingChanges := by
  intro s c rest h hhead
  have hchanges : BindingChanges c s.mq := by
    rcases hhead with ⟨u, l, hq⟩ | ⟨l, hq⟩ | ⟨u, q, hq⟩ | hq | hq | ⟨u, hq⟩
    case inr.inr.inl => exact hq ▸ rfl
    all_goals
      obtain ⟨q, hq⟩ := List.head?_eq_some_iff.mp hq
      exact hq ▸ rfl
  obtain ⟨ch, hc, hmasked⟩ := h.queue.masked hchanges
  have hie : ch.ie = false := by
    rcases hmasked with ho | hi
    · exact Bool.eq_false_iff.mpr fun hi => h.enabledOwned c ch hc hi ho
    · exact hi
  exact fireIrq_disabled (s := { s with sched := rest }) hc (.inr (.inl hie))

end Sys2Proof.Machine
end

/-!
PROOFS. The agents other than the foreground, boot and reset, the configurations, and the value computations (spec
41_unit_and_pool.md sections 1 and 2, 42_zero_cross.md, 43_phase_timer.md, 20_memory.md section 2,
70_reset_and_hazards.md).
-/

section
namespace Sys2Proof.Machine

/-! ### Scheduled moves -/

/-- A scheduled move, then the rest of the run. -/
theorem runsTo_scheduled {s s' t : State} {m : Move} {rest : List Move} {k : Nat} (hs : s.sched = m :: rest)
    (h : move m { s with sched := rest } = .next s') (r : RunsTo k s' t) : RunsTo (k + 1) s t :=
  (runsTo_succ ((step_move hs).trans h)).mpr r

/-! ### The zero-cross tracker -/

/-- The resynchronisation value is the exact quarter of the exact sum, which the 16 bits hold (42_zero_cross.md
R124). -/
theorem resync_toNat (h f r : U16) : (resync h f r).toNat = (f.toNat + r.toNat + 2 * h.toNat) / 4 := by
  have hh := h.isLt
  have hf := f.isLt
  have hr := r.isLt
  rw [resync, BitVec.toNat_ofNat, Nat.shiftRight_eq_div_pow]
  omega

/-- Settles O29: the sum is at most four times the largest timestamp, and it is symmetric. -/
theorem resyncIsTheExactQuarterSum : Obligations.ResyncIsTheExactQuarterSum := by
  intro h f r
  exact ⟨resync_toNat h f r, by rw [resync, resync, Nat.add_comm f.toNat]⟩

/-- Settles O28: the cases of `zcIrq_eq_next`, with the value of `resync_toNat` on the rising occurrence. -/
theorem zeroCrossHandlerRecordsAndResynchronises : Obligations.ZeroCrossHandlerRecordsAndResynchronises := by
  intro s rest
  refine ⟨fun hg hp hpol => ?falling, fun hg hp hpol => ?rising, fun hdis => ?disabled⟩
  case falling => exact zcIrq_eq_next.mpr ⟨hg, hp, .inl ⟨hpol, rfl⟩⟩
  case rising => exact ⟨_, resync_toNat s.cfg.half s.zcFall s.icr, zcIrq_eq_next.mpr ⟨hg, hp, .inr ⟨hpol, rfl⟩⟩⟩
  case disabled => exact zcIrq_disabled (s := { s with sched := rest }) hdis

/-- Settles O30: both moves are written out by their definitions; the 16-bit count wraps. -/
theorem captureTimerCountsAndEdgesLatch : Obligations.CaptureTimerCountsAndEdgesLatch := by
  intro s rest
  exact ⟨⟨s.capcnt + 1, BitVec.toNat_add _ _, rfl⟩, rfl⟩

/-- INFO in progress: the header and the bytes `sent` are out, and `q` is left (40_commands.md R89). -/
def State.infoAt (s : State) (l : List Move) (q : List MicroStep) (sent : List Byte) : State :=
  { s with sched := l, mq := q, seq := .sRun, tx := s.tx ++ infoHeader s.cfg ++ sent }

/-- A step of the foreground in INFO that sends `bs`, with another micro-step behind it; `L` is the schedule
before it. -/
theorem runsTo_infoAt {s t : State} {L l : List Move} {m m' : MicroStep} {q : List MicroStep} {sent bs : List Byte}
    {k : Nat} (hL : step (s.infoAt L (m :: m' :: q) sent) = fgStep (s.infoAt l (m :: m' :: q) sent))
    (h : perform m (s.infoAt l (m' :: q) sent) = .next ((s.infoAt l (m' :: q) sent).send bs))
    (r : RunsTo k (s.infoAt l (m' :: q) (sent ++ bs)) t) : RunsTo (k + 1) (s.infoAt L (m :: m' :: q) sent) t := by
  have hsent : (s.infoAt l (m' :: q) sent).send bs = s.infoAt l (m' :: q) (sent ++ bs) := by
    simp [State.infoAt, State.send]
  rw [hsent] at h
  refine (runsTo_succ ?_).mpr r
  rw [hL, fgStep_run (s := s.infoAt l (m :: m' :: q) sent) rfl]
  exact h

/-- The first step of the foreground in INFO sends the header. -/
theorem runsTo_infoAt_header {s t : State} {l : List Move} {k : Nat} (hL : step s = fgStep { s with sched := l })
    (hr : s.seq = .sRun) (hq : s.mq = infoSteps) (r : RunsTo k (s.infoAt l [.i1, .i2, .i3, .i4, .i5] []) t) :
    RunsTo (k + 1) s t := by
  refine (runsTo_succ ?_).mpr r
  rw [hL, fgStep_run (s := { s with sched := l }) hr, microStep_cons (s := { s with sched := l }) hq]
  simp [perform, microI0, State.infoAt, State.send]

/-- The zero-cross handler between two micro-steps of INFO, on the falling occurrence (42_zero_cross.md R123). -/
theorem runsTo_infoAt_falling {s t : State} {l : List Move} {q : List MicroStep} {sent : List Byte} {k : Nat}
    (hg : s.gie = true) (hp : s.zcPend = true) (hpol : s.zcPol = .falling)
    (r : RunsTo k ((zcFalling s).infoAt l q sent) t) : RunsTo (k + 1) (s.infoAt (.zcIrq :: l) q sent) t :=
  runsTo_scheduled (s := s.infoAt (.zcIrq :: l) q sent) rfl (zcIrq_eq_next.mpr ⟨hg, hp, .inl ⟨hpol, rfl⟩⟩) r

/-- The same on the rising occurrence. -/
theorem runsTo_infoAt_rising {s t : State} {l : List Move} {q : List MicroStep} {sent : List Byte} {k : Nat}
    (hg : s.gie = true) (hp : s.zcPend = true) (hpol : s.zcPol = .rising)
    (r : RunsTo k ((zcRising s).infoAt l q sent) t) : RunsTo (k + 1) (s.infoAt (.zcIrq :: l) q sent) t :=
  runsTo_scheduled (s := s.infoAt (.zcIrq :: l) q sent) rfl (zcIrq_eq_next.mpr ⟨hg, hp, .inr ⟨hpol, rfl⟩⟩) r

/-- Settles O31: in both schedules the handler writes the timestamp after its low byte has been sent. -/
theorem infoReadCanTearATimestamp : Obligations.InfoReadCanTearATimestamp := by
  intro s hrun hq hg hp
  refine ⟨fun hpol hs => ?falling, fun hpol hs => ?rising⟩
  case falling =>
    refine ⟨(zcFalling s).infoAt [] [.i3, .i4, .i5] [lo8 s.zcFall, hi8 s.icr], ?_, rfl, rfl, rfl⟩
    refine runsTo_infoAt_header (step_move hs) hrun hq ?_
    refine runsTo_infoAt (m := .i1) (bs := [lo8 s.zcFall]) rfl rfl ?_
    refine runsTo_infoAt_falling hg hp hpol ?_
    exact runsTo_infoAt (m := .i2) (bs := [hi8 s.icr]) rfl rfl (runsTo_zero.mpr rfl)
  case rising =>
    refine ⟨(zcRising s).infoAt [] [.i5] [lo8 s.zcFall, hi8 s.zcFall, lo8 s.zcRise, hi8 s.icr], ?_, rfl, rfl, rfl⟩
    refine runsTo_infoAt_header (step_move hs) hrun hq ?_
    refine runsTo_infoAt (m := .i1) (bs := [lo8 s.zcFall]) rfl rfl ?_
    refine runsTo_infoAt (m := .i2) (bs := [hi8 s.zcFall]) rfl rfl ?_
    refine runsTo_infoAt (m := .i3) (bs := [lo8 s.zcRise]) rfl rfl ?_
    refine runsTo_infoAt_rising hg hp hpol ?_
    exact runsTo_infoAt (m := .i4) (bs := [hi8 s.icr]) rfl rfl (runsTo_zero.mpr rfl)

/-! ### The phase timers and the firing handler -/

/-- The next count: one more, or 0 at `PHASE_TOP` and at the last 16-bit value (43_phase_timer.md R130). -/
theorem phaseNext_toNat (c : Cfg) (v : U16) :
    (phaseNext c v).toNat = if v = c.phaseTop ∨ v.toNat = 65535 then 0 else v.toNat + 1 := by
  have hlast : v = 65535 ↔ v.toNat = 65535 := BitVec.toNat_inj.symm
  unfold phaseNext
  simp only [hlast]
  split
  case isTrue => rfl
  case isFalse h =>
    rw [not_or] at h
    have hlt := v.isLt
    rw [BitVec.toNat_add]
    exact Nat.mod_eq_of_lt (by
      have hone : (1 : U16).toNat = 1 := rfl
      omega)

/-- Settles O32: the tick writes its counter (`phaseNext_toNat`) and the flags of its channels (`chan?_phTick`). -/
theorem phaseTickCountsAndMatches : Obligations.PhaseTickCountsAndMatches := by
  intro s tm rest
  let p : State := { s with sched := rest }
  let count := phaseNext s.cfg (s.pcnt tm)
  let t : State := { p.setPcnt tm count with chans := tickChannels s.cfg tm count s.chans }
  have ht : phTick tm p = .next t := rfl
  have hcount : t.pcnt tm = count := State.pcnt_setPcnt_same p tm count
  refine ⟨t, ht, ?frame, ?next, fun tm' htm => ?other, fun c => ?channel⟩
  case frame => cases tm <;> rfl
  case next =>
    rw [hcount]
    exact phaseNext_toNat s.cfg (s.pcnt tm)
  case other => exact State.pcnt_setPcnt_ne (s := p) htm
  case channel =>
    have hpcnt : p.pcnt tm = s.pcnt tm := by cases tm <;> rfl
    rw [chan?_phTick ht, hcount, hpcnt]
    refine Option.map_congr fun ch _ => ?_
    show (if timerOf s.cfg c = tm then withMatch s.cfg count ch else ch) = _
    by_cases hmine : timerOf s.cfg c = tm
    · rw [if_pos hmine, withMatch, matchRecorded]
      simp [hmine]
    · rw [if_neg hmine]
      simp [hmine]

/-- Settles O34: the cases of `fireIrq`, with and without an owner. -/
theorem firingHandlerPulsesTheOwner : Obligations.FiringHandlerPulsesTheOwner := by
  intro s c ch rest hc
  refine ⟨fun u hg hi hm ho => ?owned, fun hg hi hm ho => ?unowned, fun hdis => ?disabled⟩
  case owned =>
    rw [step_sched_cons, move, fireIrq_enabled (s := { s with sched := rest }) hc hg hi hm, fireChannel_owned ho]
    rfl
  case unowned =>
    rw [step_sched_cons, move, fireIrq_enabled (s := { s with sched := rest }) hc hg hi hm, fireChannel_unowned ho]
    rfl
  case disabled => exact fireIrq_disabled (s := { s with sched := rest }) hc hdis

/-- A tick onto the compare value of an enabled channel raises its flag (R130, R131). -/
theorem chan?_phTick_match {s t : State} {c : Nat} {ch : Channel} (hc : s.chan? c = some ch) (hi : ch.ie = true)
    (hmatch : phaseNext s.cfg (s.pcnt (timerOf s.cfg c)) = ch.cmp) (ht : phTick (timerOf s.cfg c) s = .next t) :
    t.chan? c = some { ch with mf := true } := by
  rw [chan?_phTick ht, hc, Option.map_some, if_pos rfl, withMatch, matchRecorded, hmatch, hi]
  simp

/-- Settles O35: the tick raises the flag, and the handler clears it with one pulse on the owner's pin. -/
theorem matchThenHandlerIsOnePulse : Obligations.MatchThenHandlerIsOnePulse := by
  intro s c u ch hg hc hi ho hmatch hs
  let p : State := { s with sched := [.fireIrq c] }
  obtain ⟨t, ht⟩ : ∃ t, phTick (timerOf s.cfg c) p = .next t := ⟨_, rfl⟩
  have hflag : t.chan? c = some { ch with mf := true } := chan?_phTick_match (s := p) hc hi hmatch ht
  have hframe := (phTick_writes ht).frame
  have hsched : t.sched = [.fireIrq c] := congrArg State.sched hframe
  have hgie : t.gie = true := ((congrArg State.gie hframe :) : t.gie = s.gie).trans hg
  have hpulses : t.pulses = s.pulses := by
    cases ht
    exact State.setPcnt_pulses ..
  have hfire := fireIrq_enabled (s := { t with sched := [] }) hflag hgie hi rfl
  rw [fireChannel_owned (ch := { ch with mf := true }) ho] at hfire
  refine ⟨_, runsTo_scheduled hs ht (runsTo_scheduled (m := .fireIrq c) hsched hfire (runsTo_zero.mpr rfl)), ?_, ?_, ?_⟩
  · exact congrArg (· ++ [u]) hpulses
  · exact State.chan?_setChan_same (s := { t with sched := [] }) hflag
  · exact (congrArg State.units hframe :)

/-- Two pending handlers, one after the other (43_phase_timer.md R134, 60_exceptions.md R146). -/
theorem runsTo_fireIrq_fireIrq {s : State} {c d u v : Nat} {x y : Channel} (hcd : c ≠ d) (hg : s.gie = true)
    (hc : s.chan? c = some x) (hxi : x.ie = true) (hxm : x.mf = true) (hu : x.owner = some u)
    (hd : s.chan? d = some y) (hyi : y.ie = true) (hym : y.mf = true) (hv : y.owner = some v) :
    RunsTo 2 { s with sched := [.fireIrq c, .fireIrq d] }
      { s with
        sched := []
        chans := (s.chans.set c { x with mf := false }).set d { y with mf := false }
        pulses := s.pulses ++ [u, v] } := by
  have hfirst := fireIrq_enabled (s := { s with sched := [.fireIrq d] }) hc hg hxi hxm
  rw [fireChannel_owned hu] at hfirst
  let p : State := { s with sched := [], chans := s.chans.set c { x with mf := false }, pulses := s.pulses ++ [u] }
  have hd' : p.chan? d = some y := (State.chan?_setChan_ne (s := s) (Ne.symm hcd)).trans hd
  have hsecond := fireIrq_enabled (s := p) hd' hg hyi hym
  rw [fireChannel_owned hv] at hsecond
  refine runsTo_scheduled (m := .fireIrq c) rfl hfirst
    (runsTo_scheduled (m := .fireIrq d) rfl hsecond (runsTo_zero.mpr ?_))
  simp [p, State.pulse, State.setChan]

/-- Settles O36: the two channels are different cells, so the order of the writes is not observable. -/
theorem firingHandlersRunInAnyOrder : Obligations.FiringHandlersRunInAnyOrder := by
  intro s c d u v x y hcd hg hc hxi hxm hu hd hyi hym hv
  refine ⟨{ s with
    sched := [], chans := (s.chans.set c { x with mf := false }).set d { y with mf := false } }, ?_, ?_⟩
  · exact runsTo_fireIrq_fireIrq hcd hg hc hxi hxm hu hd hyi hym hv
  · rw [List.set_comm _ _ hcd]
    exact runsTo_fireIrq_fireIrq (Ne.symm hcd) hg hd hyi hym hv hc hxi hxm hu

/-! ### The receive side, boot and reset -/

/-- Settles O37: the write is one cell of the ring (`Memory.read_write_same`, `Memory.read_write_ne`), and equal cursors
are an empty ring. -/
theorem receivedByteLandsAtTheWriteCursor : Obligations.ReceivedByteLandsAtTheWriteCursor := by
  intro s b rest
  refine ⟨fun hg hwr => ?stored, fun hg => ?disabled⟩
  case stored =>
    let p : State := { s with sched := rest }
    refine ⟨storeByte b p, rxByte_eq_next.mpr ⟨hg, hwr, rfl⟩, rfl, Memory.read_write_same s.rxbuf s.wr b,
      fun a ha => Memory.read_write_ne s.rxbuf b ha, Memory.write_wf s.wr b, fun hmeets => ⟨?_, ?_⟩⟩
    · show (s.fRxOverrun || decide ((s.wr + 1) % s.cfg.rxcap = s.rd)) = true
      simp [hmeets]
    · have hrd : s.rd < s.cfg.rxcap := hmeets ▸ Nat.mod_lt _ (by omega)
      rw [State.unread_storeByte (s := p) hrd hwr]
      exact if_pos hmeets
  case disabled =>
    show rxByte b { s with sched := rest } = _
    unfold rxByte rxEnabled
    exact if_neg (by simp [hg])

/-- Settles O38: in S_BOOT the foreground's step is `Boot`. -/
theorem bootSendsTheHandshake : Obligations.BootSendsTheHandshake :=
  fun _ hboot hs => (step_fg hs).trans (fgStep_boot hboot)

/-- Settles O39: the step Reset is `State.resetWith` of the configuration, whose units and channels are all reset. -/
theorem resetKeepsNothing : Obligations.ResetKeepsNothing := by
  refine ⟨fun s rest => ?_, fun s₁ s₂ rest hcfg => ?_⟩
  · refine ⟨{ State.resetWith s.cfg with sched := rest }, rfl, rfl, List.length_replicate, List.length_replicate,
      fun u x hx => ?_, fun c ch hc => ?_, _, fgStep_boot rfl, rfl⟩
    · rw [List.eq_of_mem_replicate (List.mem_of_getElem? (State.units_getElem?_of_unit? hx))]
      exact ⟨rfl, rfl⟩
    · rw [List.eq_of_mem_replicate (List.mem_of_getElem? hc)]
      rfl
  · show Host.Outcome.next { State.resetWith s₁.cfg with sched := rest } = _
    rw [hcfg]
    rfl

/-- Settles O40: the table is the definition of `State.resetWith`. -/
theorem resetStateHasTheStatedValues : Obligations.ResetStateHasTheStatedValues := by
  rintro c s rfl
  exact ⟨rfl, rfl, rfl, rfl, rfl, rfl, rfl, rfl, rfl, rfl, rfl, rfl, rfl, rfl, rfl, rfl, rfl, rfl, rfl, rfl, rfl,
    ⟨rfl, rfl, rfl⟩, fun _ => rfl⟩

/-! ### The mapping and the pool -/

/-- On 1..99 within the table the compare value is the exact quotient, which the 16 bits hold (41_unit_and_pool.md
R100). -/
theorem compareValue_of_entry {c : Cfg} {l : Nat} {e : U16} (h1 : 1 ≤ l) (h2 : l ≤ 99)
    (he : c.levelTable[l]? = some e) :
    ∃ v, compareValue c l = some v ∧ v.toNat = e.toNat * c.half.toNat / 65536 := by
  refine ⟨_, compareValue_eq_some.mpr ⟨h1, h2, e, he, rfl⟩, ?_⟩
  have hlt : (e.toNat * c.half.toNat) >>> 16 < 65536 := by
    rw [Nat.shiftRight_eq_div_pow]
    exact Nat.div_lt_of_lt_mul (Nat.mul_lt_mul'' e.isLt c.half.isLt)
  rw [BitVec.toNat_ofNat, Nat.mod_eq_of_lt hlt, Nat.shiftRight_eq_div_pow]

/-- Settles O23: `compareValue_of_entry`, and outside 1..99 there is no value. -/
theorem compareValueIsTheExactShiftedProduct : Obligations.CompareValueIsTheExactShiftedProduct :=
  fun _ _ => ⟨fun h1 h2 _ he => compareValue_of_entry h1 h2 he, compareValue_eq_none_of_outside⟩

/-- The owner of a channel in range. -/
theorem State.ownerOf_of_lt {s : State} {c : Nat} (h : c < s.chans.length) : s.ownerOf c = s.chans[c].owner := by
  rw [State.ownerOf, State.chan?, List.getElem?_eq_getElem h, Option.bind_some]

/-- Settles O25: the scan is `findIdx?`, so it finds the first channel that passes, and none where none does. -/
theorem firstFitIsTheLowestFreeChannel : Obligations.FirstFitIsTheLowestFreeChannel := by
  intro s
  refine ⟨fun c => ?_, ?_⟩
  · rw [State.firstFree, List.findIdx?_eq_some_iff_getElem]
    constructor
    · rintro ⟨hc, hfree, hlow⟩
      refine ⟨hc, ?_, fun d hd => ?_⟩
      · rw [State.ownerOf_of_lt hc]
        exact Option.isNone_iff_eq_none.mp hfree
      · rw [State.ownerOf_of_lt (hd.trans hc)]
        exact fun ho => hlow d hd (Option.isNone_iff_eq_none.mpr ho)
    · rintro ⟨hc, hfree, hlow⟩
      refine ⟨hc, ?_, fun d hd hdfree => hlow d hd ?_⟩
      · rw [State.ownerOf_of_lt hc] at hfree
        exact Option.isNone_iff_eq_none.mpr hfree
      · rw [State.ownerOf_of_lt (hd.trans hc)]
        exact Option.isNone_iff_eq_none.mp hdfree
  · rw [State.firstFree, List.findIdx?_eq_none_iff, List.forall_mem_iff_getElem]
    refine forall_congr' fun c => forall_congr' fun hc => ?_
    rw [State.ownerOf_of_lt hc]
    exact Option.isNone_eq_false_iff.trans Option.isSome_iff_ne_none

/-! ### Configurations -/

/-- The entry of a level of the range in a table of 101 entries. -/
theorem levelTable_getElem? {c : Cfg} {p : Nat} (hlen : c.levelTable.length = 101) (h2 : p ≤ 99) :
    c.levelTable[p]? = some (c.levelTable.getD p 0) := by
  rw [List.getD_eq_getElem?_getD, List.getElem?_eq_getElem (by omega), Option.getD_some]

/-- The compare value of a level of the range in a table of 101 entries, written out. -/
theorem compareValue_getD_toNat {c : Cfg} {p : Nat} (hlen : c.levelTable.length = 101) (h1 : 1 ≤ p) (h2 : p ≤ 99) :
    ((compareValue c p).getD 0).toNat = (c.levelTable.getD p 0).toNat * c.half.toNat / 65536 := by
  obtain ⟨v, hv, hval⟩ := compareValue_of_entry h1 h2 (levelTable_getElem? hlen h2)
  rw [hv, Option.getD_some, hval]

end Sys2Proof.Machine

namespace Sys2Proof

open Machine

/-- A bound of R1 on the counts is broken. -/
def Cfg.BreaksCounts (c : Cfg) : Prop :=
  c.nUnit = 0 ∨ 255 < c.nUnit ∨ 255 < 3 + 4 + 4 * c.nChan + 3 * c.nUnit

/-- A bound of R2 on the half period and the table is broken. -/
def Cfg.BreaksTable (c : Cfg) : Prop :=
  c.half.toNat = 0 ∨ c.levelTable.length ≠ 101 ∨
    (∃ p, p < 100 ∧ (c.levelTable.getD p 0).toNat < (c.levelTable.getD (p + 1) 0).toNat) ∨
    ∃ p₁ p₂, 1 ≤ p₁ ∧ p₁ < p₂ ∧ p₂ ≤ 99 ∧
      (c.levelTable.getD p₁ 0).toNat * c.half.toNat / 65536 ≤ (c.levelTable.getD p₂ 0).toNat * c.half.toNat / 65536

/-- Two of the opcodes of R3 are equal. -/
def Cfg.BreaksOpcodes (c : Cfg) : Prop :=
  c.opNothing = c.opOff ∨ c.opNothing = 1 ∨ c.opNothing = 2 ∨ c.opNothing = 4 ∨ c.opOff = 1 ∨ c.opOff = 2 ∨ c.opOff = 4

/-- A bound of section 4 on the ring or the timers is broken. -/
def Cfg.BreaksSizes (c : Cfg) : Prop := c.rxcap < 2 ∨ c.timers.length ≠ c.nChan

theorem Cfg.countsOk_iff {c : Cfg} : c.CountsOk ↔ ¬ c.BreaksCounts := by
  unfold Cfg.CountsOk Cfg.BreaksCounts
  omega

theorem Cfg.tableOk_and_compareOk_iff {c : Cfg} : c.TableOk ∧ c.CompareOk ↔ ¬ c.BreaksTable := by
  constructor
  · rintro ⟨⟨hhalf, hlen, hmono⟩, hcompare⟩ (hzero | hne | ⟨p, hp, hrise⟩ | ⟨p₁, p₂, h1, hlt, h2, hle⟩)
    · omega
    · exact hne hlen
    · have := hmono p hp
      omega
    · have hdec := hcompare p₂ (by omega) p₁ hlt h1
      rw [compareValue_getD_toNat hlen (by omega) h2, compareValue_getD_toNat hlen h1 (by omega)] at hdec
      omega
  · simp only [Cfg.BreaksTable, not_or, not_exists, not_and, not_lt, not_le, ne_eq, not_not]
    rintro ⟨hhalf, hlen, hmono, hcompare⟩
    refine ⟨⟨by omega, hlen, hmono⟩, fun p₂ h2 p₁ hlt h1 => ?_⟩
    rw [compareValue_getD_toNat hlen (by omega) (by omega), compareValue_getD_toNat hlen h1 (by omega)]
    exact hcompare p₁ p₂ h1 hlt (by omega)

theorem Cfg.opcodesOk_iff {c : Cfg} : c.OpcodesOk ↔ ¬ c.BreaksOpcodes := by
  simp only [Cfg.BreaksOpcodes, not_or]
  rfl

theorem Cfg.sizesOk_iff {c : Cfg} : c.SizesOk ↔ ¬ c.BreaksSizes := by
  unfold Cfg.SizesOk Cfg.BreaksSizes
  omega

/-- A configuration is well formed exactly where it breaks none of the bounds of R1, R2, R3 and section 4. -/
theorem Cfg.wf_iff {c : Cfg} :
    c.WF ↔ ¬ (c.BreaksCounts ∨ c.BreaksTable ∨ c.BreaksOpcodes ∨ c.BreaksSizes) := by
  rw [not_or, not_or, not_or, ← Cfg.countsOk_iff, ← Cfg.tableOk_and_compareOk_iff, ← Cfg.opcodesOk_iff,
    ← Cfg.sizesOk_iff]
  exact and_congr_right fun _ => and_assoc.symm

end Sys2Proof

namespace Sys2Proof.Machine

/-- Settles O41: breaking a bound is not being well formed (`Cfg.wf_iff`), which `configured` asks. -/
theorem illFormedConfigurationIsRefused : Obligations.IllFormedConfigurationIsRefused := by
  intro c
  exact ⟨fun hbad => if_neg fun hwf => Cfg.wf_iff.mp hwf hbad, fun hgood => if_pos (Cfg.wf_iff.mpr hgood),
    fun hwf => if_pos hwf⟩

/-! ### Ticks and edges commute with the foreground -/

/-- The state with other values in the registers that the foreground after Boot neither reads nor writes. -/
def State.outside (s : State) (count capture : U16) (pending lost : Bool) (l : List Move) : State :=
  { s with capcnt := count, icr := capture, zcPend := pending, fZcLost := lost, sched := l }

section outside
variable (count capture : U16) (pending lost : Bool) (l : List Move)

/-- What a result becomes with those registers at other values. -/
def resultOutside (r : Result) : Result := andThen r fun t => .next (t.outside count capture pending lost l)

theorem updUnit_outside (u : Nat) (f : PowerUnit → PowerUnit) (s : State) :
    updUnit u f (s.outside count capture pending lost l) =
      resultOutside count capture pending lost l (updUnit u f s) := by
  unfold updUnit
  rw [show (s.outside count capture pending lost l).unit? u = s.unit? u from rfl]
  cases s.unit? u <;> rfl

theorem updChan_outside (c : Nat) (f : Channel → Channel) (s : State) :
    updChan c f (s.outside count capture pending lost l) =
      resultOutside count capture pending lost l (updChan c f s) := by
  unfold updChan
  rw [show (s.outside count capture pending lost l).chan? c = s.chan? c from rfl]
  cases s.chan? c <;> rfl

/-- A channel and then a unit rewritten. -/
theorem updChan_updUnit_outside (c u : Nat) (f : Channel → Channel) (g : PowerUnit → PowerUnit) (s : State) :
    andThen (updChan c f (s.outside count capture pending lost l)) (updUnit u g) =
      resultOutside count capture pending lost l (andThen (updChan c f s) (updUnit u g)) := by
  rw [updChan_outside]
  cases updChan c f s with
  | next t => exact updUnit_outside count capture pending lost l u g t
  | fault e => rfl
  | refused r => rfl

theorem reprogram_outside (c u : Nat) (b : Byte) (ch : Channel) (v : U16) (s : State) :
    reprogram c u b ch v (s.outside count capture pending lost l) =
      (reprogram c u b ch v s).outside count capture pending lost l := by
  unfold Machine.reprogram
  have hpcnt : (s.outside count capture pending lost l).pcnt (timerOf s.cfg c) = s.pcnt (timerOf s.cfg c) := by
    cases timerOf s.cfg c <;> rfl
  show (if glitchPulse ch.cmp v ((s.outside count capture pending lost l).pcnt (timerOf s.cfg c)) then _ else _) = _
  rw [hpcnt]
  split <;> rfl

/-- No micro-step reads or writes those registers. -/
theorem perform_outside (m : MicroStep) (s : State) :
    perform m (s.outside count capture pending lost l) =
      resultOutside count capture pending lost l (perform m s) := by
  cases m with
  | resp | i0 | i1 | i2 | i3 | i4 | flush | curReset => rfl
  | i5 =>
    show microI5 _ = resultOutside _ _ _ _ _ (microI5 s)
    unfold microI5
    rw [show (s.outside count capture pending lost l).units = s.units from rfl,
      show (s.outside count capture pending lost l).chans = s.chans from rfl]
    split_ifs <;> rfl
  | pinHi u | pinLo u | a3 u | a5 u => exact updUnit_outside count capture pending lost l u _ s
  | a4 c | l1 c | l2 c => exact updChan_outside count capture pending lost l c _ s
  | a1 c u b | l3 c u => exact updChan_updUnit_outside count capture pending lost l c u _ _ s
  | a2 c b =>
    show microA2 c b _ = resultOutside _ _ _ _ _ (microA2 c b s)
    unfold microA2
    rw [show (s.outside count capture pending lost l).cfg = s.cfg from rfl]
    cases compareValue s.cfg b.toNat with
    | none => rfl
    | some v => exact updChan_outside count capture pending lost l c _ s
  | p c u b =>
    show microP c u b _ = resultOutside _ _ _ _ _ (microP c u b s)
    unfold microP
    rw [show (s.outside count capture pending lost l).cfg = s.cfg from rfl,
      show (s.outside count capture pending lost l).chan? c = s.chan? c from rfl]
    cases compareValue s.cfg b.toNat with
    | none => rfl
    | some v =>
      cases s.chan? c with
      | none => rfl
      | some ch => exact congrArg Host.Outcome.next (reprogram_outside count capture pending lost l c u b ch v s)

/-- No byte taken reads or writes those registers. -/
theorem fetchByte_outside (b : Byte) (s : State) :
    fetchByte b (s.outside count capture pending lost l) =
      resultOutside count capture pending lost l (fetchByte b s) := by
  unfold fetchByte
  rw [show (s.outside count capture pending lost l).framePrefix = s.framePrefix from rfl,
    show (s.outside count capture pending lost l).cfg = s.cfg from rfl]
  cases decode s.cfg (s.framePrefix ++ [b]) with
  | incomplete =>
    show latchByte b _ = resultOutside _ _ _ _ _ (latchByte b s)
    unfold latchByte
    rw [show (s.outside count capture pending lost l).seq = s.seq from rfl]
    cases s.seq <;> rfl
  | frame i rest =>
    cases rest with
    | nil => cases i <;> rfl
    | cons => rfl

/-- No step of the foreground reads or writes those registers. -/
theorem fgStep_outside (s : State) :
    fgStep (s.outside count capture pending lost l) =
      resultOutside count capture pending lost l (fgStep s) := by
  have fetch_case : fetchStep (s.outside count capture pending lost l) =
      resultOutside count capture pending lost l (fetchStep s) := by
    unfold fetchStep
    rw [show peekByte (s.outside count capture pending lost l) = peekByte s from rfl]
    show (if s.rd = s.wr then _ else _) = _
    split
    case isTrue => rfl
    case isFalse =>
      cases peekByte s with
      | error e => rfl
      | ok b => exact fetchByte_outside count capture pending lost l b s
  have micro_case : microStep (s.outside count capture pending lost l) =
      resultOutside count capture pending lost l (microStep s) := by
    cases hq : s.mq with
    | nil => simp [microStep, resultOutside, State.outside, hq]
    | cons m q =>
      rw [microStep_cons hq, microStep_cons (s := s.outside count capture pending lost l) hq]
      exact perform_outside count capture pending lost l m { s with mq := q, seq := seqAfter q }
  unfold fgStep
  rw [show (s.outside count capture pending lost l).seq = s.seq from rfl]
  cases s.seq with
  | sBoot => rfl
  | sLead | sOpc | sId | sLvl => exact fetch_case
  | sRun => exact micro_case

end outside

/-- After Boot the foreground leaves `gie` alone (10_state.md R26). -/
theorem fgStep_gie {s t : State} (h : fgStep s = .next t) (hne : s.seq ≠ .sBoot) : t.gie = s.gie := by
  cases fgStep_cases h with
  | boot hboot _ => exact absurd hboot hne
  | hold _ _ ht => exact congrArg State.gie ht
  | fetch b _ _ _ _ hf => exact (congrArg State.gie (fetchByte_writes hf) :)
  | micro m q _ _ hm => exact (congrArg State.gie (perform_writes hm).frame :)

/-- A run of two steps. -/
theorem runsTo_two {s t : State} : RunsTo 2 s t ↔ andThen (step s) step = .next t := by
  rw [andThen_eq_next]
  constructor
  · intro h
    obtain ⟨s₁, h₁, h⟩ := runsTo_succ_inv h
    obtain ⟨s₂, h₂, h⟩ := runsTo_succ_inv h
    rw [runsTo_zero] at h
    exact ⟨s₁, h₁, h ▸ h₂⟩
  · rintro ⟨s₁, h₁, h₂⟩
    exact (runsTo_succ h₁).mpr ((runsTo_succ h₂).mpr (runsTo_zero.mpr rfl))

/-- A move that writes, from every state, the same values to those registers as from `s` commutes with the
foreground. -/
theorem runsTo_two_swap {s t : State} {m : Move} {count capture : U16} {pending lost : Bool}
    (hm : ∀ p : State, p.capcnt = s.capcnt → p.icr = s.icr → p.zcPend = s.zcPend → p.fZcLost = s.fZcLost →
      p.gie = s.gie → move m p = .next (p.outside count capture pending lost p.sched))
    (hne : s.seq ≠ .sBoot) :
    RunsTo 2 { s with sched := [m, .fg] } t ↔ RunsTo 2 { s with sched := [.fg, m] } t := by
  have hleft : andThen (step { s with sched := [m, .fg] }) step =
      resultOutside count capture pending lost [] (fgStep s) := by
    rw [step_sched_cons, hm { s with sched := [.fg] } rfl rfl rfl rfl rfl]
    exact fgStep_outside count capture pending lost [] s
  have hright : andThen (step { s with sched := [.fg, m] }) step =
      resultOutside count capture pending lost [] (fgStep s) := by
    have hfirst : step { s with sched := [.fg, m] } =
        resultOutside s.capcnt s.icr s.zcPend s.fZcLost [m] (fgStep s) :=
      fgStep_outside s.capcnt s.icr s.zcPend s.fZcLost [m] s
    rw [hfirst]
    cases hs : fgStep s with
    | next p => exact hm _ rfl rfl rfl rfl (fgStep_gie hs hne :)
    | fault e => rfl
    | refused r => rfl
  rw [runsTo_two, runsTo_two, hleft, hright]

/-- Settles O50: CapTick and ZcEdge write registers that the foreground neither reads nor writes (`fgStep_outside`), and
read only registers that it leaves alone after Boot. -/
theorem ticksAndEdgesCommuteWithTheForeground : Obligations.TicksAndEdgesCommuteWithTheForeground := by
  rintro s t m hne (rfl | rfl)
  · refine runsTo_two_swap (count := s.capcnt + 1) (capture := s.icr) (pending := s.zcPend) (lost := s.fZcLost)
      (fun p hcount hcapture hpending hlost _ => ?_) hne
    rw [← hcount, ← hcapture, ← hpending, ← hlost]
    rfl
  · refine runsTo_two_swap (count := s.capcnt) (capture := s.capcnt) (pending := true) (lost := zcLostAfterEdge s)
      (fun p hcount _ hpending hlost hgie => ?_) hne
    have hmark : zcLostAfterEdge p = zcLostAfterEdge s := by
      rw [zcLostAfterEdge, zcLostAfterEdge, hlost, hpending, hgie]
    rw [← hcount, ← hmark]
    rfl

end Sys2Proof.Machine
end

/-!
PROOFS. What each command does: the telemetry block of INFO, the dimming levels, the one answer of every command, and
errors that touch no hardware (spec/30_encoding.md section 3, 40_commands.md sections 2 to 4, 41_unit_and_pool.md
sections 3 and 4, 60_exceptions.md section 1).
-/

section
namespace Sys2Proof.Machine

/-! ### The telemetry block -/

/-- A list of blocks of `n` bytes is as long as its blocks. -/
theorem length_flatMap_blocks {α : Type} {f : α → List Byte} {n : Nat} (hf : ∀ x, (f x).length = n) (l : List α) :
    (l.flatMap f).length = n * l.length := by
  induction l with
  | nil => simp
  | cons x l ih => rw [List.flatMap_cons, List.length_append, hf, ih, List.length_cons, Nat.mul_succ, Nat.add_comm]

/-- The `i`-th of a list of blocks of `n` bytes, whatever follows them. -/
theorem take_drop_flatMap_blocks {α : Type} {f : α → List Byte} {n : Nat} (hf : ∀ x, (f x).length = n) {l : List α}
    {i : Nat} {x : α} (hx : l[i]? = some x) (rest : List Byte) : ((l.flatMap f ++ rest).drop (n * i)).take n = f x := by
  induction l generalizing i with
  | nil => simp at hx
  | cons y l ih =>
    rw [List.flatMap_cons, List.append_assoc]
    cases i with
    | zero =>
      obtain rfl : y = x := Option.some.inj hx
      rw [Nat.mul_zero, List.drop_zero, List.take_left' (hf y)]
    | succ i =>
      rw [Nat.mul_succ, Nat.add_comm, ← List.drop_drop, List.drop_left' (hf y)]
      exact ih hx

/-- A channel takes four bytes of the block (30_encoding.md R72). -/
theorem channelBytes_length (ch : Channel) : (channelBytes ch).length = 4 := by
  unfold channelBytes
  split <;> rfl

/-- The bytes behind the timestamps: four for each channel and three for each unit (R72). -/
theorem infoTail_length (s : State) : (infoTail s).length = 4 * s.chans.length + 3 * s.units.length := by
  rw [infoTail, List.length_append, length_flatMap_blocks channelBytes_length,
    length_flatMap_blocks (n := 3) (fun _ => rfl), List.length_zipIdx]

/-- The telemetry block of a state (R72). -/
def telemetry (s : State) : List Byte :=
  infoHeader s.cfg ++ [lo8 s.zcFall, hi8 s.zcFall, lo8 s.zcRise, hi8 s.zcRise] ++ infoTail s

theorem telemetry_length (s : State) : (telemetry s).length = 8 + (infoTail s).length := by
  rw [telemetry, List.length_append]
  rfl

theorem drop_eight_telemetry (s : State) (n : Nat) : (telemetry s).drop (8 + n) = (infoTail s).drop n := by
  rw [← List.drop_drop]
  rfl

/-- The bytes of a channel stand at its offset (R72). -/
theorem telemetry_channel {s : State} {c : Nat} {ch : Channel} (hc : s.chan? c = some ch) :
    ((telemetry s).drop (8 + 4 * c)).take 4 = channelBytes ch := by
  rw [drop_eight_telemetry]
  exact take_drop_flatMap_blocks channelBytes_length hc _

/-- The bytes of a unit stand at its offset behind all channels (R72). -/
theorem telemetry_unit {s : State} {u : Nat} {x : PowerUnit} (hx : s.unit? u = some x) :
    ((telemetry s).drop (8 + 4 * s.chans.length + 3 * (u - 1))).take 3 = unitBytes s u x := by
  have hpos : 1 ≤ u := (State.unit?_isSome_iff.mp (by rw [hx]; rfl : (s.unit? u).isSome)).1
  have hzip : (s.units.zipIdx 1)[u - 1]? = some (x, u) := by
    rw [List.getElem?_zipIdx, State.units_getElem?_of_unit? hx, Option.map_some, Nat.add_sub_cancel' hpos]
  rw [Nat.add_assoc, drop_eight_telemetry, infoTail, ← List.drop_drop,
    List.drop_left' (length_flatMap_blocks channelBytes_length s.chans)]
  have hblock := take_drop_flatMap_blocks (f := fun p : PowerUnit × Nat => unitBytes s p.2 p.1) (n := 3)
    (fun _ => rfl) hzip []
  rwa [List.append_nil] at hblock

/-- The foreground alone works off INFO in six steps: the telemetry block is sent, and nothing else changes
(40_commands.md R89). -/
theorem runsTo_infoSteps {s : State} (hshape : s.Shaped) (hs : s.sched = []) (hr : s.seq = .sRun)
    (hq : s.mq = infoSteps) : RunsTo 6 s { s with mq := [], seq := .sLead, tx := s.tx ++ telemetry s } := by
  have hself : ({ s with sched := [] } : State) = s := by rw [← hs]
  refine runsTo_infoAt_header ((step_fg hs).trans (congrArg fgStep hself.symm)) hr hq ?_
  refine runsTo_infoAt (m := .i1) (bs := [lo8 s.zcFall]) rfl rfl ?_
  refine runsTo_infoAt (m := .i2) (bs := [hi8 s.zcFall]) rfl rfl ?_
  refine runsTo_infoAt (m := .i3) (bs := [lo8 s.zcRise]) rfl rfl ?_
  refine runsTo_infoAt (m := .i4) (bs := [hi8 s.zcRise]) rfl rfl ?_
  refine runsTo_micro (m := .i5) (q := []) rfl rfl rfl (microI5_of_shaped hshape) (runsTo_zero.mpr ?_)
  have htail : infoTail { s.infoAt [] [.i5] [lo8 s.zcFall, hi8 s.zcFall, lo8 s.zcRise, hi8 s.zcRise] with
      mq := [], seq := .sLead } = infoTail s := rfl
  simpa [State.infoAt, State.send, telemetry, hs] using htail

/-- Settles O10: the block sent is `telemetry`, and its parts stand at their offsets. -/
theorem infoSendsTheTelemetryBlock : Obligations.InfoSendsTheTelemetryBlock := by
  refine ⟨fun s => ⟨rfl, rfl⟩, fun s hshape hs hr hq => ?_⟩
  have ⟨hunits, hchans, _⟩ := hshape
  refine ⟨telemetry s, runsTo_infoSteps hshape hs hr hq, ?length, rfl, fun c ch hc => ?channel, fun u x hx => ?unit⟩
  case length =>
    rw [telemetry_length, infoTail_length, hunits, hchans]
    omega
  case channel =>
    rw [telemetry_channel hc, channelBytes]
    cases ch.owner <;> rfl
  case unit =>
    rw [← hchans, telemetry_unit hx, unitBytes]
    have hstate : ustateByte x.ustate = match x.ustate with | .off => 0 | .on => 1 | .dimming => 2 := by
      cases x.ustate <;> rfl
    have hlevel : unitLevelByte s x = match x.uch.bind s.chan? with | some ch => ch.lvl | none => 0 := by
      unfold unitLevelByte
      cases x.uch with
      | none => rfl
      | some c =>
        show ((s.chan? c).map (·.lvl)).getD 0 = match s.chan? c with | some ch => ch.lvl | none => 0
        cases s.chan? c <;> rfl
    rw [hstate, hlevel]
    rfl

/-! ### The dimming levels -/

/-- The meaning of LEVEL: a request for its level (40_commands.md R94). -/
theorem exec_level (id l : Byte) (s : State) :
    exec (.level id l) s = .next (s.popByte.startRun (execSteps s Config.opLevel id l)) := rfl

/-- Settles O13: outside 1..99 a LEVEL is the request of ON or OFF with its own opcode. -/
theorem levelOutsideTheDimmingRange : Obligations.LevelOutsideTheDimmingRange := by
  intro s id l hshape hs
  refine ⟨rfl, _, exec_level id l s, rfl, fun hid hl => ?high, fun hid hl => ?low, fun hid => ?invalid⟩
  case high => exact runsTo_execSteps_latched hshape hs rfl hid.1 hid.2 (setLevelSteps_high hl) rfl rfl
  case low => exact runsTo_execSteps_latched hshape hs rfl hid.1 hid.2 (setLevelSteps_low hl) rfl rfl
  case invalid => exact runsTo_execSteps_invalid hs rfl hid rfl

/-- In a table of 101 entries a dimming level has the exact quotient as its compare value (41_unit_and_pool.md R100). -/
theorem compareValue_of_tableOk {c : Cfg} (h : c.TableOk) {l : Nat} (h1 : 1 ≤ l) (h2 : l ≤ 99) :
    compareValue c l = some (BitVec.ofNat 16 ((c.levelTable.getD l 0).toNat * c.half.toNat / 65536)) := by
  obtain ⟨-, hlen, -⟩ := h
  refine compareValue_eq_some.mpr ⟨h1, h2, _, levelTable_getElem? hlen h2, ?_⟩
  rw [Nat.shiftRight_eq_div_pow]

/-- A1 writes both directions of the link, and the level (R104). -/
theorem microA1_of_valid {s : State} {c u : Nat} {l : Byte} (hc : c < s.chans.length) (h1 : 1 ≤ u)
    (h2 : u ≤ s.units.length) : microA1 c u l s = .next { s with
      chans := s.chans.modify c fun ch => { ch with owner := some u, lvl := l }
      units := s.units.modify (u - 1) fun x => { x with uch := some c } } := by
  rw [microA1, updChan_of_lt hc]
  exact updUnit_of_valid h1 h2

/-- A2 writes the compare register (R104). -/
theorem microA2_of_valid {s : State} {c : Nat} {l : Byte} {v : U16} (hc : c < s.chans.length)
    (hv : compareValue s.cfg l.toNat = some v) :
    microA2 c l s = .next { s with chans := s.chans.modify c fun ch => { ch with cmp := v } } := by
  unfold microA2
  rw [hv]
  exact updChan_of_lt hc

/-- The foreground alone works off `Acquire` in five steps (R104). -/
theorem runsTo_acquireSteps {s t : State} {c u k : Nat} {l : Byte} {v : U16} {q : List MicroStep} (hs : s.sched = [])
    (hr : s.seq = .sRun) (hc : c < s.chans.length) (h1 : 1 ≤ u) (h2 : u ≤ s.units.length)
    (hv : compareValue s.cfg l.toNat = some v) (hq : s.mq = acquireSteps c u l ++ q)
    (r : RunsTo k { s.acquired c u l v with mq := q, seq := seqAfter q } t) : RunsTo (k + 5) s t := by
  refine runsTo_micro (m := .a1 c u l) hs hr hq (microA1_of_valid hc h1 h2) ?_
  refine runsTo_micro (m := .a2 c l) hs rfl rfl (microA2_of_valid (by simpa using hc) hv) ?_
  refine runsTo_micro (m := .a3 u) hs rfl rfl (updUnit_of_valid h1 (by simpa using h2)) ?_
  refine runsTo_micro (m := .a4 c) hs rfl rfl (updChan_of_lt (by simpa using hc)) ?_
  refine runsTo_micro (m := .a5 u) hs rfl rfl (updUnit_of_valid h1 (by simpa using h2)) ?_
  simp only [List.modify_modify_eq]
  exact r

/-- The foreground alone works off a request for 1..99 on a unit without a channel, where one is free (40_commands.md
R94, 41_unit_and_pool.md R102). -/
theorem runsTo_execSteps_acquire {s : State} {op id l : Byte} {c : Nat} {v : U16} (hshape : s.Shaped)
    (hs : s.sched = []) (hr : s.seq = .sRun) (h1 : 1 ≤ id.toNat) (h2 : id.toNat ≤ s.cfg.nUnit) (hl : dimLevel l)
    (hv : compareValue s.cfg l.toNat = some v) (hu : s.uchOf id.toNat = none) (hc : s.firstFree = some c)
    (hq : s.mq = execSteps s op id l) :
    RunsTo s.mq.length s
      { s.acquired c id.toNat l v with mq := [], seq := .sLead, tx := s.tx ++ status .success op id } := by
  obtain ⟨hunits, -, -⟩ := hshape
  obtain ⟨ch, hch, -⟩ := State.chan?_of_firstFree hc
  have hlt : c < s.chans.length := State.chan?_isSome_iff.mp (by rw [hch]; rfl)
  have hsteps : s.mq = acquireSteps c id.toNat l ++ [.resp (status .success op id)] := by
    rw [hq, execSteps_valid h1 h2, setLevelSteps_free hl.1 hl.2 hu hc, respondSteps, if_pos rfl]
  rw [hsteps]
  refine runsTo_acquireSteps hs hr hlt h1 (hunits.symm ▸ h2) hv hsteps ?_
  exact runsTo_micro (m := .resp (status .success op id)) hs rfl rfl rfl (runsTo_zero.mpr rfl)

/-- The foreground alone works off a request for 1..99 on a unit without a channel, where none is free (R102). -/
theorem runsTo_execSteps_exhausted {s : State} {op id l : Byte} (hs : s.sched = []) (hr : s.seq = .sRun)
    (h1 : 1 ≤ id.toNat) (h2 : id.toNat ≤ s.cfg.nUnit) (hl : dimLevel l) (hu : s.uchOf id.toNat = none)
    (hc : s.firstFree = none) (hq : s.mq = execSteps s op id l) :
    RunsTo s.mq.length s
      { s with
        rd := 0, wr := 0, mq := [], seq := .sLead, tx := s.tx ++ status .noDimmerAvailable op id,
        flushes := s.flushes + 1 } := by
  have hraise : s.mq = raiseSteps .noDimmerAvailable op id := by
    rw [hq, execSteps_valid h1 h2, setLevelSteps_exhausted hl.1 hl.2 hu hc]
    rfl
  rw [hraise]
  exact runsTo_raiseSteps hs hr hraise

/-- Settles O14: the scan's answer is the channel named, or there is none (`firstFitIsTheLowestFreeChannel`). -/
theorem levelAcquiresTheFirstFreeChannel : Obligations.LevelAcquiresTheFirstFreeChannel := by
  intro s id l hshape htable hs h1 h2 hl1 hl2 hu
  obtain ⟨hfirst, hnone⟩ := firstFitIsTheLowestFreeChannel s
  have ⟨_, hchans, _⟩ := hshape
  refine ⟨_, exec_level id l s, fun c hfree hc hlow => ?acquire, fun hfull => ?exhausted⟩
  case acquire =>
    exact runsTo_execSteps_acquire hshape hs rfl h1 h2 ⟨hl1, hl2⟩ (compareValue_of_tableOk htable hl1 hl2) hu
      ((hfirst c).mpr ⟨hchans.symm ▸ hc, hfree, hlow⟩) rfl
  case exhausted =>
    exact runsTo_execSteps_exhausted hs rfl h1 h2 ⟨hl1, hl2⟩ hu (hnone.mpr (hchans.symm ▸ hfull)) rfl

/-- Reprogram, written out (41_unit_and_pool.md R106). -/
theorem reprogram_eq (c u : Nat) (l : Byte) (ch : Channel) (v : U16) (s : State) :
    reprogram c u l ch v s = { s with
      chans := s.chans.set c { ch with cmp := v, lvl := l }
      pulses := s.pulses ++
        if v.toNat < ch.cmp.toNat ∧ ch.cmp.toNat < (s.pcnt (timerOf s.cfg c)).toNat then [u] else [] } := by
  unfold Machine.reprogram glitchPulse
  by_cases hdue : v.toNat < ch.cmp.toNat ∧ ch.cmp.toNat < (s.pcnt (timerOf s.cfg c)).toNat
  · simp [hdue, State.setChan, State.pulse]
  · rw [if_neg (by simpa using hdue), if_neg hdue, List.append_nil]
    rfl

/-- P rewrites the channel, and pulses where that is due (R106). -/
theorem microP_of_valid {s : State} {c u : Nat} {l : Byte} {ch : Channel} {v : U16} (hc : s.chan? c = some ch)
    (hv : compareValue s.cfg l.toNat = some v) : microP c u l s = .next { s with
      chans := s.chans.set c { ch with cmp := v, lvl := l }
      pulses := s.pulses ++
        if v.toNat < ch.cmp.toNat ∧ ch.cmp.toNat < (s.pcnt (timerOf s.cfg c)).toNat then [u] else [] } :=
  (microP_eq_next.mpr ⟨v, ch, hv, hc, rfl⟩).trans (congrArg _ (reprogram_eq c u l ch v s))

/-- The foreground alone works off a request for 1..99 on a unit with a channel (40_commands.md R94, 41_unit_and_pool.md
R102, R106). -/
theorem runsTo_execSteps_reprogram {s : State} {op id l : Byte} {c : Nat} {ch : Channel} {v : U16} (hs : s.sched = [])
    (hr : s.seq = .sRun) (h1 : 1 ≤ id.toNat) (h2 : id.toNat ≤ s.cfg.nUnit) (hl : dimLevel l)
    (hv : compareValue s.cfg l.toNat = some v) (hu : s.uchOf id.toNat = some c) (hc : s.chan? c = some ch)
    (hq : s.mq = execSteps s op id l) :
    RunsTo s.mq.length s { s with
      mq := [], seq := .sLead, tx := s.tx ++ status .success op id
      chans := s.chans.set c { ch with cmp := v, lvl := l }
      pulses := s.pulses ++
        if v.toNat < ch.cmp.toNat ∧ ch.cmp.toNat < (s.pcnt (timerOf s.cfg c)).toNat then [id.toNat] else [] } := by
  have hsteps : s.mq = [.p c id.toNat l, .resp (status .success op id)] := by
    rw [hq, execSteps_valid h1 h2, setLevelSteps_bound hl.1 hl.2 hu]
    rfl
  rw [hsteps]
  refine runsTo_micro (m := .p c id.toNat l) hs hr hsteps (microP_of_valid hc hv) ?_
  exact runsTo_micro (m := .resp (status .success op id)) hs rfl rfl rfl (runsTo_zero.mpr rfl)

/-- Settles O15: the request is the one micro-step P, with the exact quotient as the new compare value. -/
theorem levelReprogramsTheBoundChannel : Obligations.LevelReprogramsTheBoundChannel := by
  intro s id l c ch hshape htable hs h1 h2 hl1 hl2 hu hc
  refine ⟨_, exec_level id l s, ?_⟩
  have hrun := runsTo_execSteps_reprogram (s := s.popByte.startRun (execSteps s Config.opLevel id l)) hs rfl h1 h2
    ⟨hl1, hl2⟩ (compareValue_of_tableOk htable hl1 hl2) hu hc rfl
  obtain ⟨v, hv, hval⟩ := compareValue_of_entry hl1 hl2 (levelTable_getElem? htable.2.1 hl2)
  obtain rfl := Option.some.inj (hv.symm.trans (compareValue_of_tableOk htable hl1 hl2))
  rw [hval] at hrun
  exact hrun

/-! ### One answer -/

/-- The bytes a micro-step answers a command with. -/
def MicroStep.answer : MicroStep → Option (List Byte)
  | .resp bs => some bs
  | _ => none

/-- An error queues its status and no other answer (40_commands.md R93). -/
theorem filterMap_answer_raiseSteps (r : ResultCode) (a b : Byte) :
    (raiseSteps r a b).filterMap MicroStep.answer = [status r a b] := rfl

/-- The steps of a request answer nothing (41_unit_and_pool.md R102). -/
theorem filterMap_answer_setLevelSteps (s : State) (u : Nat) (l : Byte) :
    (setLevelSteps s u l).1.filterMap MicroStep.answer = [] := by
  rw [List.filterMap_eq_nil_iff]
  intro m hm
  obtain ⟨p, hp, hsteps⟩ | ⟨-, c, -, hsteps⟩ | ⟨-, -, c, -, hsteps⟩ | hsteps := setLevelSteps_cases s u l <;>
    rw [hsteps] at hm
  · rcases List.mem_append.mp hm with hm | hm
    · obtain ⟨c, -, rfl | rfl | rfl⟩ := State.mem_releaseIfBound.mp hm <;> rfl
    · rw [List.mem_singleton.mp hm]
      rcases hp with rfl | rfl <;> rfl
  · rw [List.mem_singleton.mp hm]
    rfl
  · simp only [acquireSteps, List.mem_cons, List.not_mem_nil, or_false] at hm
    obtain rfl | rfl | rfl | rfl | rfl := hm <;> rfl
  · exact absurd hm List.not_mem_nil

/-- The result of a request is a code that is sent (60_exceptions.md R140). -/
theorem setLevelSteps_sentCode (s : State) (u : Nat) (l : Byte) : sentCode (setLevelSteps s u l).2 := by
  obtain ⟨p, -, hsteps⟩ | ⟨-, c, -, hsteps⟩ | ⟨-, -, c, -, hsteps⟩ | hsteps := setLevelSteps_cases s u l <;>
    rw [hsteps] <;> exact ⟨nofun, nofun⟩

/-- A level request queues one answer, a status with a code that is sent (40_commands.md R90). -/
theorem filterMap_answer_execSteps (s : State) (op id l : Byte) :
    ∃ r, (execSteps s op id l).filterMap MicroStep.answer = [status r op id] ∧ sentCode r := by
  unfold execSteps
  split
  case isTrue => exact ⟨.invalidId, rfl, by decide⟩
  case isFalse =>
    refine ⟨(setLevelSteps s id.toNat l).2, ?_, setLevelSteps_sentCode s id.toNat l⟩
    unfold respondSteps
    split
    case isTrue hr =>
      rw [List.filterMap_append, filterMap_answer_setLevelSteps, hr]
      rfl
    case isFalse =>
      rw [List.filterMap_append, filterMap_answer_setLevelSteps, filterMap_answer_raiseSteps, List.nil_append]

/-- Settles O19: a request answers once (`filterMap_answer_execSteps`), and so does an error. -/
theorem everyUnitOrIllegalCommandAnswersOnce : Obligations.EveryUnitOrIllegalCommandAnswersOnce := by
  intro i s t hnothing hinfo h
  suffices hone : ∃ res a b, t.mq.filterMap MicroStep.answer = [status res a b] ∧ sentCode res from hone
  cases i with
  | nothing => exact absurd rfl hnothing
  | info => exact absurd rfl hinfo
  | on id | off id | level id l =>
    cases h
    obtain ⟨r, hr, hsent⟩ := filterMap_answer_execSteps s _ id _
    exact ⟨r, _, id, hr, hsent⟩
  | badop op =>
    cases h
    exact ⟨.invalidCommand, op, 0, rfl, by decide⟩
  | badstart b =>
    cases h
    exact ⟨.invalidStart, b, 0, rfl, by decide⟩

/-- Settles O20: `exec_writes` for the step itself, and `runsTo_raiseSteps` for what an error leaves to do. -/
theorem commandErrorsTouchNoHardware : Obligations.CommandErrorsTouchNoHardware :=
  fun _ _ _ h => ⟨exec_writes h, fun _ _ _ hs hr hq => runsTo_raiseSteps hs hr hq⟩

/-! ### The last successful request -/

/-- What a client observes of a unit after a request for the level `l` that succeeds (41_unit_and_pool.md R107). -/
def requestedView (l : Byte) : UState × Bool × Byte :=
  if 100 ≤ l.toNat then (.on, true, 0) else if l.toNat = 0 then (.off, false, 0) else (.dimming, false, l)

theorem requestedView_dim {l : Byte} (h : dimLevel l) : requestedView l = (.dimming, false, l) := by
  obtain ⟨h1, h2⟩ := h
  unfold requestedView
  rw [if_neg (by omega), if_neg (by omega)]

/-- A run has one end. -/
theorem runsTo_unique {k : Nat} {s t t' : State} (h : RunsTo k s t) (h' : RunsTo k s t') : t = t' := by
  cases h.symm.trans h'
  rfl

/-- The unit rewritten in place reads as written. -/
theorem unit?_of_modify {s t : State} {u : Nat} {x x' : PowerUnit} (hx : s.unit? u = some x)
    (ht : t.units = s.units.modify (u - 1) fun _ => x') : t.unit? u = some x' := by
  have hb := (State.unit?_isSome_iff.mp (by rw [hx]; rfl : (s.unit? u).isSome)).1
  unfold State.unit?
  rw [if_neg (by omega), ht, List.getElem?_modify_eq, State.units_getElem?_of_unit? hx]
  rfl

/-- What a client observes of a unit without a channel. -/
theorem unitView_of_free {t : State} {u : Nat} {x : PowerUnit} (hx : t.unit? u = some x) (hu : x.uch = none) :
    t.unitView u = some (x.ustate, x.pin, 0) := by
  rw [State.unitView, hx, Option.map_some, unitLevelByte, hu]

/-- What a client observes of a unit with a channel. -/
theorem unitView_of_bound {t : State} {u c : Nat} {x : PowerUnit} {ch : Channel} (hx : t.unit? u = some x)
    (hu : x.uch = some c) (hc : t.chan? c = some ch) : t.unitView u = some (x.ustate, x.pin, ch.lvl) := by
  rw [State.unitView, hx, Option.map_some, unitLevelByte, hu]
  simp [hc]

/-- A request that succeeds leaves its unit as the level says, whatever the state was before. -/
theorem unitView_of_request {s v : State} {op id l : Byte} (hp : PoolOk s) (hsettled : s.OthersSettled none)
    (htable : s.cfg.TableOk) (hs : s.sched = []) (hr : s.seq = .sRun) (hq : s.mq = execSteps s op id l)
    (hok : MicroStep.flush ∉ s.mq) (hrun : RunsTo s.mq.length s v) : v.unitView id.toNat = some (requestedView l) := by
  have hshape := hp.shaped
  have hid : ¬ (id.toNat = 0 ∨ s.cfg.nUnit < id.toNat) := fun hbad => by
    rw [hq, execSteps_invalid hbad] at hok
    exact hok (by simp [raiseSteps])
  have h1 : 1 ≤ id.toNat := by omega
  have h2 : id.toNat ≤ s.cfg.nUnit := by omega
  obtain ⟨x, hx⟩ := State.unit?_of_valid h1 (hp.unitCount.symm ▸ h2)
  by_cases hhigh : 100 ≤ l.toNat
  · obtain rfl := runsTo_unique hrun
      (runsTo_execSteps_latched hshape hs hr h1 h2 (setLevelSteps_high hhigh) rfl hq)
    rw [requestedView, if_pos hhigh]
    exact unitView_of_free (x := { ustate := .on, uch := none, pin := true }) (unit?_of_modify hx rfl) rfl
  by_cases hlow : l.toNat = 0
  · obtain rfl := runsTo_unique hrun
      (runsTo_execSteps_latched hshape hs hr h1 h2 (setLevelSteps_low hlow) rfl hq)
    rw [requestedView, if_neg hhigh, if_pos hlow]
    exact unitView_of_free (x := { ustate := .off, uch := none, pin := false }) (unit?_of_modify hx rfl) rfl
  have hdim : dimLevel l := ⟨by omega, by omega⟩
  rw [requestedView_dim hdim]
  obtain ⟨w, hw⟩ := compareValue_isSome htable hdim.1 hdim.2
  cases hu : s.uchOf id.toNat with
  | some c =>
    obtain ⟨ch, hc, -⟩ := hp.chan_of_uchOf hu
    have huch : x.uch = some c := by rwa [State.uchOf, hx, Option.bind_some] at hu
    obtain ⟨hdimming, hpin⟩ := hsettled id.toNat x hx (by simp)
    have hstate : x.ustate = .dimming := hdimming.mpr (by simp [huch])
    have hlow : x.pin = false := by simpa [hstate] using hpin
    obtain rfl := runsTo_unique hrun (runsTo_execSteps_reprogram hs hr h1 h2 hdim hw hu hc hq)
    rw [← hstate, ← hlow]
    exact unitView_of_bound (ch := { ch with cmp := w, lvl := l }) hx huch (State.chan?_setChan_same (s := s) hc)
  | none =>
    cases hf : s.firstFree with
    | none =>
      rw [hq, execSteps_valid h1 h2, setLevelSteps_exhausted hdim.1 hdim.2 hu hf] at hok
      exact absurd (by simp [respondSteps, raiseSteps]) hok
    | some c =>
      obtain ⟨ch, hc, -⟩ := State.chan?_of_firstFree hf
      obtain rfl := runsTo_unique hrun (runsTo_execSteps_acquire hshape hs hr h1 h2 hdim hw hu hf hq)
      refine unitView_of_bound (x := { ustate := .dimming, uch := some c, pin := false }) (c := c)
        (unit?_of_modify hx rfl) rfl (ch := { owner := some id.toNat, lvl := l, cmp := w, ie := true, mf := ch.mf }) ?_
      show (s.chans.modify c _)[c]? = _
      rw [List.getElem?_modify_eq, show s.chans[c]? = some ch from hc]
      rfl

/-- The level that a request on a unit asks for (40_commands.md R91, R92, R94). -/
def requestedLevel : Instr → Byte
  | .level _ l => l
  | .on _ => 100
  | _ => 0

/-- A command on a unit that succeeds leaves the unit as the command says, whatever the state was before. -/
theorem unitView_of_command {s t v : State} {i : Instr} {id : Byte} (h : Inv s) (hw : s.waits) (hs : s.sched = [])
    (hi : i = .on id ∨ i = .off id ∨ ∃ l, i = .level id l) (ht : exec i s = .next t) (hok : MicroStep.flush ∉ t.mq)
    (hrun : RunsTo t.mq.length t v) : v.unitView id.toNat = some (requestedView (requestedLevel i)) := by
  obtain ⟨-, hpool, ⟨hsettled, -⟩, -⟩ := inv_iff.mp h
  have hidle : s.mq = [] := h.running.mpr (State.seq_of_waits hw).2
  rw [hidle] at hsettled
  have request {op l : Byte} (hcfg : t.cfg = s.cfg) (hunits : t.units = s.units) (hchans : t.chans = s.chans)
      (hsched : t.sched = s.sched) (hseq : t.seq = .sRun) (hq : t.mq = execSteps t op id l) :
      v.unitView id.toNat = some (requestedView l) :=
    unitView_of_request (hpool.congr hcfg hunits hchans) (hsettled.congr hunits) (hcfg.symm ▸ h.tableOk)
      (hsched.trans hs) hseq hq hok hrun
  rcases hi with rfl | rfl | ⟨l, rfl⟩
  · cases ht
    exact request rfl rfl rfl rfl rfl rfl
  · cases ht
    exact request rfl rfl rfl rfl rfl rfl
  · cases ht
    exact request rfl rfl rfl rfl rfl rfl

/-- Settles O21: both units are left as the command says (`unitView_of_command`). -/
theorem lastSuccessfulRequestDecidesTheUnit : Obligations.LastSuccessfulRequestDecidesTheUnit := by
  intro s₁ s₂ t₁ t₂ v₁ v₂ i id h₁ h₂ hw₁ hw₂ _ hs₁ hs₂ hi ht₁ ht₂ hok₁ hok₂ hrun₁ hrun₂
  have hview₁ := unitView_of_command h₁ hw₁ hs₁ hi ht₁ hok₁ hrun₁
  have hview₂ := unitView_of_command h₂ hw₂ hs₂ hi ht₂ hok₂ hrun₂
  exact ⟨hview₁.trans hview₂.symm, hview₁ ▸ rfl⟩

end Sys2Proof.Machine
end
